-- ==== Sys2Proof/Word.lean ====
section
/-! DEFINITION. The word types of the T34 and the index types of its numbered things (spec/00_scope.md, Conventions). -/

namespace Sys2Proof

/-- A byte of a link frame, of a message or of capture memory. -/
abbrev Byte := BitVec 8

/-- A capture memory word and the timestamp counter: 32 bits (00_scope, Terms: word). -/
abbrev Word := BitVec 32

/-- Lines 0 to 3 (00_scope, Numbering). -/
abbrev LineId := Fin 4

/-- Regions 0 to 3 (00_scope, Numbering). -/
abbrev RegionId := Fin 4

/-- Timer units TU0 to TU3 (00_scope, Numbering). -/
abbrev UnitId := Fin 4

/-- Event input pins IN0 and IN1 (00_scope, Numbering). -/
abbrev PinId := Fin 2

/-- Condition flags F0 to F7 (00_scope, Numbering). -/
abbrev FlagId := Fin 8

/-- A set of condition flags, carried as a mask in which bit n stands for Fn (07 opening). -/
abbrev FlagSet := BitVec 8

/-- A set of lines or regions, carried as a mask in which bit n stands for member n (07 opening). -/
abbrev QuadSet := BitVec 4

end Sys2Proof
end

