-- ==== Sys2Proof/Syntax.lean ====
section
/-! DEFINITION. The commands of the T34: one constructor of Instr for each row of spec/opcode_table.json. -/

namespace Sys2Proof

/-- The idle and the active level of a line, or of the host link, after the sense is applied (R3, R165). -/
inductive Level where
  | mark
  | space
  deriving DecidableEq, Repr

/-- The raw level of a pin (R3, R44). -/
inductive PinLevel where
  | low
  | high
  deriving DecidableEq, Repr

/-- Samples 7, 8 and 9 of one bit slot, on which its value is decided (R4, R165). -/
structure Votes where
  s7 : Level
  s8 : Level
  s9 : Level
  deriving DecidableEq, Repr

/-- The commands. A request row carries the tag and the payload bytes of its request frame (R130, R133); a row
for a line sample carries the line and, where the step is not tied to one level, the raw pin level (R3); the
link reception rows carry the samples of the link receive pin, oldest first (R165). -/
inductive Instr where
  /-- R176: power-on; the straps BAUD1 and BAUD0 as sampled. -/
  | powerOn (baud1 baud0 : PinLevel)
  /-- R176: pin reset; the straps as sampled. -/
  | pinReset (baud1 baud0 : PinLevel)
  /-- R175: the soft reset, at the last byte of the RESET reply. -/
  | softReset
  /-- R174. -/
  | ident (tag : Byte) (payload : List Byte)
  /-- R175: the request RESET. -/
  | reset (tag : Byte) (payload : List Byte)
  /-- R173. -/
  | noticeMask (tag : Byte) (payload : List Byte)
  /-- R131: a good request frame whose code names no request. -/
  | unknownCode (tag code : Byte) (payload : List Byte)
  /-- R2. -/
  | lineConfig (tag : Byte) (payload : List Byte)
  /-- R5. -/
  | lineStart (tag : Byte) (payload : List Byte)
  /-- R15. -/
  | lineStop (tag : Byte) (payload : List Byte)
  /-- R16. -/
  | lineReset (tag : Byte) (payload : List Byte)
  /-- R17. -/
  | lineStatus (tag : Byte) (payload : List Byte)
  /-- R41. -/
  | timeConfig (tag : Byte) (payload : List Byte)
  /-- R42. -/
  | timeRead (tag : Byte) (payload : List Byte)
  /-- R43. -/
  | inputConfig (tag : Byte) (payload : List Byte)
  /-- R49. -/
  | timerConfig (tag : Byte) (payload : List Byte)
  /-- R51, R56: TIMER_CONTROL whose operation is START (or names none: log 23). -/
  | timerControlStart (tag : Byte) (payload : List Byte)
  /-- R52, R56: TIMER_CONTROL whose operation is STOP. -/
  | timerControlStop (tag : Byte) (payload : List Byte)
  /-- R53, R56: TIMER_CONTROL whose operation is CAPTURE. -/
  | timerControlCapture (tag : Byte) (payload : List Byte)
  /-- R56. -/
  | timerRead (tag : Byte) (payload : List Byte)
  /-- R67. -/
  | filterWrite (tag : Byte) (payload : List Byte)
  /-- R68. -/
  | filterEnable (tag : Byte) (payload : List Byte)
  /-- R69. -/
  | filterRead (tag : Byte) (payload : List Byte)
  /-- R73. -/
  | seqLoad (tag : Byte) (payload : List Byte)
  /-- R76. -/
  | seqArm (tag : Byte) (payload : List Byte)
  /-- R78. -/
  | seqDisarm (tag : Byte) (payload : List Byte)
  /-- R87. -/
  | seqForce (tag : Byte) (payload : List Byte)
  /-- R95. -/
  | seqStatus (tag : Byte) (payload : List Byte)
  /-- R88. -/
  | seqMasks (tag : Byte) (payload : List Byte)
  /-- R80. -/
  | flagsWrite (tag : Byte) (payload : List Byte)
  /-- R94. -/
  | outputConfig (tag : Byte) (payload : List Byte)
  /-- R99. -/
  | regionConfig (tag : Byte) (payload : List Byte)
  /-- R102. -/
  | regionStart (tag : Byte) (payload : List Byte)
  /-- R103. -/
  | regionStop (tag : Byte) (payload : List Byte)
  /-- R104. -/
  | regionClear (tag : Byte) (payload : List Byte)
  /-- R124. -/
  | regionStatus (tag : Byte) (payload : List Byte)
  /-- R119. -/
  | read (tag : Byte) (payload : List Byte)
  /-- R120. -/
  | release (tag : Byte) (payload : List Byte)
  /-- R121. -/
  | rewind (tag : Byte) (payload : List Byte)
  /-- R144. -/
  | statsRead (tag : Byte) (payload : List Byte)
  /-- R150. -/
  | send (tag : Byte) (payload : List Byte)
  /-- R151. -/
  | cannedWrite (tag : Byte) (payload : List Byte)
  /-- R161. -/
  | txFlush (tag : Byte) (payload : List Byte)
  /-- R164. -/
  | txStatus (tag : Byte) (payload : List Byte)
  /-- R5: the mark sample that completes 12 bit times of mark in SETTLE. -/
  | settleEnd (line : LineId)
  /-- R6: the space sample after a mark sample in HUNT. -/
  | startBitFall (line : LineId)
  /-- R6: sample 9 of the start bit. -/
  | startBitValidation (line : LineId) (pin : PinLevel)
  /-- R10: the last sample of the frame's last stop bit. -/
  | characterDelivered (line : LineId) (pin : PinLevel)
  /-- R9: sample 9 of the first stop bit, every slot decided space. -/
  | breakRecognised (line : LineId) (pin : PinLevel)
  /-- R12: the eighth mark sample in a row in BREAK_HOLD. -/
  | breakEvent (line : LineId)
  /-- R26: the mark sample at which the idle measure rises to the gap threshold. -/
  | gapCompletion (line : LineId)
  /-- R39: the tick that takes the counter past 0xFFFFFFFF. -/
  | counterWrap
  /-- R44: samples of an event input pin, oldest first. -/
  | inputEdge (pin : PinId) (samples : List PinLevel)
  /-- R54: the tick at which the unit's count reaches its limit. -/
  | timerExpiry (unit : UnitId)
  /-- R79: the sequencer takes its oldest event. -/
  | eventTaken
  /-- R93: the tick that ends the active pulse. -/
  | pulseEnd
  /-- R153. -/
  | takeLine (line : LineId)
  /-- R154. -/
  | preambleEnd (line : LineId)
  /-- R155. -/
  | txBreakEnd (line : LineId)
  /-- R156: a sent character's last stop bit ends. -/
  | txCharacterEnd (line : LineId)
  /-- R157: the oldest awaited echo's deadline passes. -/
  | echoDeadline (line : LineId)
  /-- R159: the turnaround hold is complete. -/
  | holdEnd (line : LineId)
  /-- R166: link characters, the last of which completes a length field outside 2 to 1026. -/
  | frameLengthError (samples : List PinLevel)
  /-- R168: 20 ms pass without a byte. -/
  | frameTimeout
  /-- R165 to R167: samples of the link receive pin, oldest first. -/
  | frameReceived (samples : List PinLevel)
  /-- R171: the last byte of the frame on the wire has been sent. -/
  | frameSent
  /-- R38: the end of a prescaler division. -/
  | tick
  /-- R3: one sample of a line, at the raw level of its receive data pin. -/
  | lineSample (line : LineId) (pin : PinLevel)
  deriving DecidableEq, Repr

end Sys2Proof
end

