-- ==== Sys2Proof/Decode.lean ====
section
/-! DEFINITION. The decoder of opcode-table words. No row of spec/opcode_table.json gives bits (spec/98_reader.md:
n_rows_with_fixed 0), so no word spells a command. The layouts the spec does give, of link frames and payloads,
are decoded in Sys2Proof/Machine/Link.lean and Sys2Proof/Machine/Operands.lean; which row a request code stands for is
here. -/

namespace Sys2Proof

/-- The command that a word spells by the table's bits: none, as no row gives bits. -/
def decodeTableWord (_nbits _w : Nat) : Option Instr := none

/-- The request codes of R133's table. -/
def requestCodes : List Byte :=
  [0x01, 0x02, 0x03, 0x10, 0x11, 0x12, 0x13, 0x14, 0x20, 0x21, 0x22, 0x23, 0x24, 0x25] ++
  [0x30, 0x31, 0x32, 0x40, 0x41, 0x42, 0x43, 0x44, 0x45, 0x46, 0x47] ++
  [0x50, 0x51, 0x52, 0x53, 0x54, 0x55, 0x56, 0x57, 0x60, 0x70, 0x71, 0x72, 0x73]

/-- The operation byte of a TIMER_CONTROL payload (R133), when the payload has TIMER_CONTROL's length. -/
def timerOperation (payload : List Byte) : Option Byte :=
  match payload with
  | [_, op] => some op
  | _ => none

end Sys2Proof
end

