-- ==== Sys2Proof/Config.lean ====
section
/-! DEFINITION. What the part fixes (its capacities and identity) and the free values: the orders of arrivals that the spec leaves open inside one command. -/

namespace Sys2Proof.Config

/-- Capture memory: 16,384 words (R97). -/
def captureWords : Nat := 16384

/-- Words in one block of capture memory (R97). -/
def blockWords : Nat := 64

/-- Places of the sequencer's event queue (R79). -/
def eventPlaces : Nat := 16

/-- Places of a line's transmit queue (R149). -/
def transmitPlaces : Nat := 4

/-- Places of the request buffer (R169). -/
def requestPlaces : Nat := 2

/-- Waiting busy replies at which sync is held off (R169). -/
def busyHoldOff : Nat := 4

/-- Entries of an open message's status list (R23). -/
def statusPlaces : Nat := 8

/-- Maximum of the 24-bit tick counts and durations (R12, R21, R28). -/
def tickMax : Nat := 0xFFFFFF

/-- Maximum of a 16-bit saturating count (R22, R109). -/
def count16Max : Nat := 65535

/-- Maximum of a 32-bit counter (R125, R137). -/
def count32Max : Nat := 0xFFFFFFFF

/-- Maximum of the 48-bit chars counter (R137). -/
def charsMax : Nat := 0xFFFFFFFFFFFF

/-- Maximum of the idle measure (R13). -/
def idleMax : Nat := 255

/-- FREE VALUE (R24, log 8): at the n-th free choice, whether a collision report reaches the assembler before
the delivery (character or break event) that made the transmit unit find the collision. -/
opaque reportBeforeDelivery : Nat → Bool

/-- FREE VALUE (R171, log 9): at the n-th free choice, whether a request's reply reaches an idle transmitter
before the notice raised by the same request. -/
opaque replyBeforeNotice : Nat → Bool

/-- FREE VALUE (R79, log 10): at the n-th free choice, the order in which the timer events of one tick join
the event queue (the place, counted from the front, at which the next event is put among those already placed). -/
opaque arrivalPlace : Nat → Nat

/-- FREE VALUE (R24, R162, log 11): at the n-th free choice, whether the transmit unit's part of LINE_STOP is
taken before the receiver's. -/
opaque flushBeforeStop : Nat → Bool

end Sys2Proof.Config
end

