-- ==== Sys2Proof/Machine/State.lean ====
section
/-! DEFINITION. The T34's state: every setting, register, queue and counter the spec gives its blocks, as plain data, and State.reset. -/

namespace Sys2Proof.Machine

/-! ### Line settings (R1, R19, R148) -/

/-- Character formats (R1). -/
inductive Format where
  | f8N
  | f8E
  | f8O
  | f8A
  deriving DecidableEq, Repr

/-- Stop bits (R1). -/
inductive StopBits where
  | one
  | two
  deriving DecidableEq, Repr

/-- Bit order (R1). -/
inductive BitOrder where
  | lsbFirst
  | msbFirst
  deriving DecidableEq, Repr

/-- Line sense (R1, R3). -/
inductive Sense where
  | normal
  | inverted
  deriving DecidableEq, Repr

/-- Delimiting modes (R19). -/
inductive DelimMode where
  | gap
  | address
  | addressGap
  deriving DecidableEq, Repr

/-- A line's default action and the filter table's decision (R19, R64). -/
inductive Decision where
  | record
  | drop
  deriving DecidableEq, Repr

/-- The settings LINE_CONFIG carries for the receiver (R1), the assembler (R19) and the transmit unit (R148). -/
structure LineSettings where
  /-- rate divisor D, 0 to 4095 -/
  divisor : Nat
  format : Format
  stopBits : StopBits
  bitOrder : BitOrder
  sense : Sense
  mode : DelimMode
  /-- 2 to 255 bit times -/
  gapThreshold : Nat
  /-- 1 to 256 stored bytes -/
  maxLength : Nat
  region : RegionId
  defaultAction : Decision
  txPermitted : Bool
  /-- 0 to 255 bit times -/
  accessGap : Nat
  /-- turnaround hold, 1 to 16 bit times -/
  hold : Nat
  deriving DecidableEq, Repr

/-! ### Receiver (Line Receivers) -/

/-- Receiver states (section 1.3). -/
inductive RxState where
  | off
  | settle
  | hunt
  | char
  | breakHold
  deriving DecidableEq, Repr

/-- One line's receiver. -/
structure Receiver where
  state : RxState
  /-- LINE_STOP accepted in CHAR (R15) -/
  stopPending : Bool
  /-- a fall seen, samples 7 to 9 still to come (R6) -/
  startPending : Bool
  /-- entered HUNT at space, no mark seen yet (R10) -/
  awaitingMark : Bool
  /-- the most recent sample, mark in OFF (R17) -/
  level : Level
  /-- the idle measure (R13) -/
  idle : Nat
  /-- mark samples counted toward the next whole bit time of the idle measure (R13) -/
  idleSamples : Nat
  /-- consecutive mark samples in SETTLE (R5) or BREAK_HOLD (R12) -/
  markRun : Nat
  /-- samples taken since the fall, sample 1 of slot 0 being the first (R4) -/
  frameSamples : Nat
  /-- sample 7 of the slot in reception -/
  vote7 : Level
  /-- sample 8 of the slot in reception -/
  vote8 : Level
  /-- decided slots 1, 2, ... of the frame in reception, in order (R7) -/
  slots : List Level
  /-- some decided slot of the frame was not unanimous (R6, R7) -/
  noise : Bool
  /-- start time and epoch tag of the frame in reception (R11) -/
  startTime : Word
  startTag : Byte
  /-- driver enable was asserted at validation (R11) -/
  echo : Bool
  /-- ticks since the first space sample: the break duration count, set to B at validation (R12, R21) -/
  tickCount : Nat
  deriving DecidableEq, Repr

/-- A character as delivered to the assembler (R10). -/
structure Character where
  data : Byte
  /-- address flag -/
  addr : Bool
  parity : Bool
  framing : Bool
  noise : Bool
  startTime : Word
  startTag : Byte
  echo : Bool
  /-- ticks since the start time (R21) -/
  ticks : Nat
  deriving DecidableEq, Repr

/-- A break event as delivered to the assembler (R12). -/
structure BreakInfo where
  startTime : Word
  startTag : Byte
  duration : Nat
  echo : Bool
  cut : Bool
  deriving DecidableEq, Repr

/-! ### Message assembler (Message Assembly) -/

/-- Kinds of a status list entry (R23). -/
inductive StatusKind where
  | parity
  | framing
  | noise
  | address
  deriving DecidableEq, Repr

/-- One status list entry (R23). -/
structure StatusEntry where
  position : Nat
  kind : StatusKind
  deriving DecidableEq, Repr

/-- End causes of a message (section 2.4). -/
inductive EndCause where
  | gap
  | address
  | brk
  | stop
  deriving DecidableEq, Repr

/-- Flags of an open message (section 2.2). -/
structure MsgFlags where
  par : Bool
  frm : Bool
  noi : Bool
  trunc : Bool
  own : Bool
  coll : Bool
  addrStart : Bool
  orphan : Bool
  statOvf : Bool
  deriving DecidableEq, Repr

/-- An open message (section 2.2). A CLOSED assembler holds none (R20). -/
structure Message where
  startTime : Word
  startTag : Byte
  /-- ticks since the start time, saturating at 0xFFFFFF -/
  ticks : Nat
  /-- the tick count at the end of the most recent character -/
  lastEnd : Nat
  received : Nat
  stored : List Byte
  /-- first leading byte -/
  lead0 : Byte
  /-- second leading byte, absent while only one character has been received -/
  lead1 : Option Byte
  flags : MsgFlags
  status : List StatusEntry
  deriving DecidableEq, Repr

/-! ### Transmit unit (Transmit Unit) -/

/-- Where a transmission came from (R149). -/
inductive TxSource where
  | host
  | canned (slot : Fin 8)
  deriving DecidableEq, Repr

/-- A transmission (R149). -/
structure Transmission where
  source : TxSource
  preamble : Nat
  /-- 0 (no break) or 13 to 255 -/
  brk : Nat
  /-- address flag on first byte -/
  addrFirst : Bool
  data : List Byte
  deriving DecidableEq, Repr

/-- Transmit unit states (section 9.3). -/
inductive TxState where
  | idle
  | wait
  | preamble
  | brk
  | data
  | hold
  deriving DecidableEq, Repr

/-- Outcomes of a transmission (R160). -/
inductive TxOutcome where
  | ok
  | collision
  | aborted
  deriving DecidableEq, Repr

/-- How the transmission in progress was cut (R161 to R163). -/
inductive TxCut where
  | none
  /-- by TX_FLUSH or LINE_STOP: ends with an outcome -/
  | flushed
  /-- by LINE_RESET: ends without an outcome -/
  | reset
  deriving DecidableEq, Repr

/-- The character on the transmit pin: its slots and the settings it began with (R156, R162). -/
structure PinChar where
  data : Byte
  slots : List Level
  divisor : Nat
  sense : Sense
  deriving DecidableEq, Repr

/-- An awaited echo (R157). The deadline is held as the bit times it lies after the end of the character's last
stop bit on the transmit pin. -/
structure AwaitedEcho where
  data : Byte
  ninth : Option Level
  deadline : Nat
  deriving DecidableEq, Repr

/-- One line's transmit unit. -/
structure TxUnit where
  state : TxState
  /-- oldest first (R149) -/
  queue : List Transmission
  onPin : Option PinChar
  /-- data bytes of the oldest transmission whose characters have begun (R156) -/
  sent : Nat
  awaited : List AwaitedEcho
  /-- a collision has been found for the transmission in progress (R157) -/
  collided : Bool
  cut : TxCut
  /-- absent: none yet (R160) -/
  lastOutcome : Option TxOutcome
  deriving DecidableEq, Repr

/-- One slot of the canned message table that is not empty (R151). -/
structure CannedMessage where
  line : LineId
  preamble : Nat
  brk : Nat
  addrFirst : Bool
  data : List Byte
  deriving DecidableEq, Repr

/-- One line: its settings, receiver, assembler and transmit unit. -/
structure Line where
  cfg : LineSettings
  rx : Receiver
  /-- the assembler: absent is CLOSED, present is OPEN (R20) -/
  msg : Option Message
  tx : TxUnit
  deriving DecidableEq, Repr

/-! ### Time base, event inputs, timer units -/

/-- The time base (R38, R39). -/
structure TimeBase where
  tickDiv : Byte
  counter : Word
  epoch : BitVec 16
  deriving DecidableEq, Repr

/-- Functions of an event input pin (R43). -/
inductive PinFunction where
  | off
  | syncCapture
  | syncRestart
  | flag
  deriving DecidableEq, Repr

/-- Valid edge settings (R43). -/
inductive EdgeSelect where
  | rising
  | falling
  | both
  deriving DecidableEq, Repr

/-- Directions of an edge (R44). -/
inductive Edge where
  | rising
  | falling
  deriving DecidableEq, Repr

/-- One event input pin (R43 to R45). -/
structure InputPin where
  func : PinFunction
  edge : EdgeSelect
  flag : FlagId
  mask : QuadSet
  /-- first-enable marker (R45) -/
  marker : Bool
  /-- absent until the first sample after a reset (R44) -/
  accepted : Option PinLevel
  /-- the last sample showed the level opposite to the accepted one (R44) -/
  opposite : Bool
  deriving DecidableEq, Repr

/-- Timer modes (R49). -/
inductive TimerMode where
  | once
  | repeating
  deriving DecidableEq, Repr

/-- Timer states (R50). -/
inductive TimerState where
  | idle
  | running
  | expired
  deriving DecidableEq, Repr

/-- One timer unit (R49, R50). -/
structure TimerUnit where
  limit : Nat
  mode : TimerMode
  flag : Option FlagId
  mask : QuadSet
  state : TimerState
  count : Nat
  capture : Nat
  generation : Byte
  deriving DecidableEq, Repr

/-! ### Filter table (R57, R62) -/

/-- Address tests. -/
inductive AddressTest where
  | any
  | startOnly
  | notStart
  deriving DecidableEq, Repr

/-- Error classes. -/
inductive ErrorClass where
  | any
  | clean
  | errored
  deriving DecidableEq, Repr

/-- Origins. -/
inductive Origin where
  | any
  | ownOnly
  | foreignOnly
  deriving DecidableEq, Repr

/-- Filter actions. -/
inductive FilterAction where
  | record
  | drop
  | count
  deriving DecidableEq, Repr

/-- A byte test: a value and a mask. -/
structure ByteTest where
  value : Byte
  mask : Byte
  deriving DecidableEq, Repr

/-- One filter entry (R57). -/
structure FilterEntry where
  enabled : Bool
  lines : QuadSet
  first : ByteTest
  second : Option ByteTest
  address : AddressTest
  lenMin : Nat
  lenMax : Nat
  errorClass : ErrorClass
  origin : Origin
  action : FilterAction
  flag : Option FlagId
  slice : Nat
  deriving DecidableEq, Repr

/-- An entry with its hit counter (R57, R62). -/
structure Filter where
  entry : FilterEntry
  hits : Nat
  deriving DecidableEq, Repr

/-! ### Trigger sequencer -/

/-- Sequencer states (R71). -/
inductive SeqState where
  | idle
  | armed
  | fired
  | fault
  deriving DecidableEq, Repr

/-- Targets of an exit (R72). -/
inductive ExitTarget where
  | step (index : Fin 16)
  | fire
  | ret
  deriving DecidableEq, Repr

/-- Kinds of a match exit (R72). -/
inductive ExitKind where
  | go
  | call
  deriving DecidableEq, Repr

/-- Actions of a step (R72). -/
inductive StepAction where
  | none
  | startTimer (unit : UnitId)
  | stopTimer (unit : UnitId)
  | captureTimer (unit : UnitId)
  | setFlag (flag : FlagId)
  | clearFlag (flag : FlagId)
  | mark (value : Byte)
  | pulse
  | send (slot : Fin 8)
  deriving DecidableEq, Repr

/-- Action timings (R72, R92). -/
inductive ActionTiming where
  | each
  | exit
  | onElse
  deriving DecidableEq, Repr

/-- The sense of a condition (R72). -/
inductive CondSense where
  | any
  | all
  deriving DecidableEq, Repr

/-- One step record (R72). The else exit is absent for a step without a guard, where it has no effect. -/
structure StepRecord where
  mask : FlagSet
  sense : CondSense
  occurrences : Nat
  guard : Option UnitId
  matchKind : ExitKind
  matchTarget : ExitTarget
  elseTarget : Option ExitTarget
  action : StepAction
  timing : ActionTiming
  consume : Bool
  deriving DecidableEq, Repr

/-- Events of the sequencer's queue (R79). -/
inductive SeqEvent where
  | message (line : LineId) (flags : FlagSet)
  | timer (unit : UnitId) (flag : Option FlagId) (generation : Byte)
  | input (pin : PinId) (flag : FlagId)
  | host (toSet toClear : FlagSet)
  deriving DecidableEq, Repr

/-- Fault causes (R89). -/
inductive SeqFaultCause where
  | none
  | eventLoss
  | emptyReturn
  deriving DecidableEq, Repr

/-- Causes of a fire (R86). -/
inductive FireCause where
  | matched
  | elsed
  | forced
  deriving DecidableEq, Repr

/-- The last fire record (R71, R86). -/
structure FireRecord where
  step : Fin 16
  cause : FireCause
  time : Word
  tag : Byte
  deriving DecidableEq, Repr

/-- TRIG_OUT modes (R93). -/
inductive OutputMode where
  | level
  | pulse
  deriving DecidableEq, Repr

/-- TRIG_OUT's settings and state (R93). -/
structure TrigOut where
  idleLevel : PinLevel
  mode : OutputMode
  width : Nat
  held : Bool
  /-- the remaining width of an active pulse -/
  pulse : Option Nat
  deriving DecidableEq, Repr

/-- The trigger sequencer (R71). -/
structure Sequencer where
  state : SeqState
  /-- the loaded count is the table's length -/
  table : List StepRecord
  current : Fin 16
  occurrence : Nat
  guardGen : Byte
  flags : FlagSet
  link : Option (Fin 16)
  queue : List SeqEvent
  trigMask : QuadSet
  markMask : QuadSet
  cause : SeqFaultCause
  lastFire : Option FireRecord
  out : TrigOut
  deriving DecidableEq, Repr

/-! ### Capture store -/

/-- Region states (section 6.2). -/
inductive RegionState where
  | disabled
  | stopped
  | run
  | armed
  | postfill
  | frozen
  deriving DecidableEq, Repr

/-- Region policies (R98). -/
inductive Policy where
  | roll
  | stop
  deriving DecidableEq, Repr

/-- One region: settings (R98), state (section 6.2) and counters (R125). -/
structure Region where
  base : Nat
  size : Nat
  policy : Policy
  threshold : Nat
  state : RegionState
  head : Nat
  cursor : Nat
  tail : Nat
  used : Nat
  /-- words from the cursor to the tail (R101, R124; log 18) -/
  unread : Nat
  /-- record count -/
  count : Nat
  quota : Nat
  hasTrig : Bool
  pendMsgs : Nat
  pendOther : Nat
  short : Bool
  trigMissing : Bool
  /-- threshold-crossed marker (R118) -/
  crossed : Bool
  written : Nat
  overwritten : Nat
  unreadLost : Nat
  refusedMsgs : Nat
  refusedOther : Nat
  deriving DecidableEq, Repr

/-- The capture store: capture memory in canonical form (see Memory.wf) and the regions. -/
structure Store where
  mem : List Host.Cell
  regions : Vector Region 4
  deriving DecidableEq, Repr

/-! ### Statistics (R137 to R143) -/

/-- A LINE group, in R136's order. -/
structure LineStats where
  chars : Nat
  messages : Nat
  recorded : Nat
  filtered : Nat
  lost : Nat
  truncated : Nat
  parityChars : Nat
  framingChars : Nat
  noiseChars : Nat
  falseStarts : Nat
  breaks : Nat
  /-- size buckets 1, 2-3, 4-7, 8-15, 16-63, 64-255, 256 or more (R140) -/
  buckets : Vector Nat 7
  txOk : Nat
  txCollision : Nat
  txAborted : Nat
  txDeferred : Nat
  txRefused : Nat
  deriving DecidableEq, Repr

/-- The LINK group (R143). -/
structure LinkStats where
  framesOk : Nat
  checkErrors : Nat
  lengthErrors : Nat
  timeouts : Nat
  busyRefusals : Nat
  deriving DecidableEq, Repr

/-- The groups the Statistics Unit holds (R137). -/
structure Stats where
  lines : Vector LineStats 4
  eventsTaken : Nat
  eventsLost : Nat
  link : LinkStats
  deriving DecidableEq, Repr

/-! ### Host link -/

/-- The frame receiver with the bytes taken so far (R166). -/
inductive FrameRx where
  | hunt
  /-- HEADER, no length byte taken yet -/
  | header
  /-- HEADER, the low byte of the length taken -/
  | headerLow (low : Byte)
  /-- BODY: the two length bytes and the bytes taken since, in order -/
  | body (low high : Byte) (got : List Byte)
  deriving DecidableEq, Repr

/-- A request frame that passed the check (R130). -/
structure Request where
  tag : Byte
  code : Byte
  payload : List Byte
  deriving DecidableEq, Repr

/-- A request in the buffer; it keeps its place while its reply is formed and sent (R169). -/
structure Buffered where
  request : Request
  inHandling : Bool
  deriving DecidableEq, Repr

/-- Which producer formed a reply (R171). The RESET reply is the handler's reply after which the part performs
the soft reset (R175). -/
inductive ReplyOrigin where
  | handler
  | busy
  | resetReply
  deriving DecidableEq, Repr

/-- A reply frame (R131). -/
structure Reply where
  tag : Byte
  code : Byte
  payload : List Byte
  origin : ReplyOrigin
  deriving DecidableEq, Repr

/-- Notice kinds with their indexes (R172). -/
inductive NoticeKind where
  | ready
  | trigger
  | frozen (region : RegionId)
  | threshold (region : RegionId)
  | seqFault
  | txEmpty (line : LineId)
  | linkFault
  deriving DecidableEq, Repr

/-- A pending notice (R132, R172). -/
structure Notice where
  kind : NoticeKind
  payload : List Byte
  deriving DecidableEq, Repr

/-- The frame the transmitter is sending (R171). -/
inductive Outgoing where
  | reply (r : Reply)
  | notice (n : Notice)
  deriving DecidableEq, Repr

/-- Causes of the most recent reset (R174). -/
inductive ResetCause where
  | power
  | pin
  | request
  deriving DecidableEq, Repr

/-- The byte that the link's byte receiver is taking: a start bit pending, or bits that follow a validated one
(R165). -/
structure ByteInReception where
  /-- samples taken of the current slot, 0 to 15 -/
  place : Nat
  vote7 : Level
  vote8 : Level
  /-- the slots decided so far, the start bit first -/
  slots : List Level
  deriving DecidableEq, Repr

/-- The link's byte receiver (R165). -/
structure ByteReceiver where
  /-- the most recent sample -/
  level : Level
  /-- a stop bit was decided space and no mark sample has come since -/
  awaitingMark : Bool
  current : Option ByteInReception
  deriving DecidableEq, Repr

/-- The link controller. -/
structure Link where
  /-- the straps as sampled at the last power-on or pin reset (R165) -/
  baud1 : PinLevel
  baud0 : PinLevel
  bytes : ByteReceiver
  rx : FrameRx
  /-- oldest first, at most two (R169) -/
  buffer : List Buffered
  /-- oldest first (R171) -/
  replies : List Reply
  wire : Option Outgoing
  /-- oldest first (R172) -/
  notices : List Notice
  mask : Byte
  cause : ResetCause
  /-- a RESET request has been taken and its soft reset is to come (R175) -/
  resetTaken : Bool
  deriving DecidableEq, Repr

/-! ### The whole part -/

/-- The T34, with the queue of commands that wait (the block's own form of a program) and the counter of free
choices taken. -/
structure State where
  lines : Vector Line 4
  tb : TimeBase
  pins : Vector InputPin 2
  timers : Vector TimerUnit 4
  filters : Vector Filter 32
  seq : Sequencer
  store : Store
  stats : Stats
  /-- the canned message table (R151); absent is an empty slot -/
  canned : Vector (Option CannedMessage) 8
  link : Link
  /-- the MODEL's own field: how many free choices have been taken (log 8) -/
  free : Nat
  /-- the MODEL's own field: commands that wait, first in first out (log 2) -/
  pending : List Instr
  deriving DecidableEq, Repr

/-- Faults: none. The spec describes no command after which the part stops (INVENTORY.md, Faults). -/
inductive Fault where
  deriving DecidableEq, Repr

/-- Refusals. -/
inductive Refusal where
  /-- Raised by an arm of exec whose command has no meaning yet; safe, as a stop proves nothing about the
  hardware. No arm raises it. -/
  | notModelled (mnemonic : String)
  deriving DecidableEq, Repr

/-! ### The state after reset -/

/-- R1, R19, R148. -/
def LineSettings.reset : LineSettings :=
  { divisor := 155, format := .f8N, stopBits := .one, bitOrder := .lsbFirst, sense := .normal, mode := .gap,
    gapThreshold := 30, maxLength := 256, region := 0, defaultAction := .record, txPermitted := false,
    accessGap := 20, hold := 1 }

/-- R18; the receiver's work fields at the values of log 15. Also the receiver of a line that is OFF. -/
def Receiver.off : Receiver :=
  { state := .off, stopPending := false, startPending := false, awaitingMark := false, level := .mark, idle := 0,
    idleSamples := 0, markRun := 0, frameSamples := 0, vote7 := .mark, vote8 := .mark, slots := [],
    noise := false, startTime := 0, startTag := 0, echo := false, tickCount := 0 }

/-- R163; the work fields at the values of log 15. -/
def TxUnit.reset : TxUnit :=
  { state := .idle, queue := [], onPin := none, sent := 0, awaited := [], collided := false, cut := .none,
    lastOutcome := none }

/-- R18, R37, R163. -/
def Line.reset : Line :=
  { cfg := LineSettings.reset, rx := Receiver.off, msg := none, tx := TxUnit.reset }

/-- R38, R39. -/
def TimeBase.reset : TimeBase := { tickDiv := 23, counter := 0, epoch := 0 }

/-- R43 to R45. -/
def InputPin.reset : InputPin :=
  { func := .off, edge := .rising, flag := 0, mask := 0, marker := false, accepted := none, opposite := false }

/-- R49, R50. -/
def TimerUnit.reset : TimerUnit :=
  { limit := 1, mode := .once, flag := none, mask := 0, state := .idle, count := 0, capture := 0, generation := 0 }

/-- R57. -/
def FilterEntry.reset : FilterEntry :=
  { enabled := false, lines := 0, first := { value := 0, mask := 0 }, second := none, address := .any,
    lenMin := 0, lenMax := 0, errorClass := .any, origin := .any, action := .count, flag := none, slice := 0 }

/-- R70. -/
def Filter.reset : Filter := { entry := FilterEntry.reset, hits := 0 }

/-- R93. -/
def TrigOut.reset : TrigOut :=
  { idleLevel := .low, mode := .pulse, width := 10, held := false, pulse := none }

/-- R71. -/
def Sequencer.reset : Sequencer :=
  { state := .idle, table := [], current := 0, occurrence := 0, guardGen := 0, flags := 0, link := none,
    queue := [], trigMask := 0, markMask := 0, cause := .none, lastFire := none, out := TrigOut.reset }

/-- R98, R126. -/
def Region.reset : Region :=
  { base := 0, size := 0, policy := .roll, threshold := 0, state := .disabled, head := 0, cursor := 0, tail := 0,
    used := 0, unread := 0, count := 0, quota := 0, hasTrig := false, pendMsgs := 0, pendOther := 0,
    short := false, trigMissing := false, crossed := false, written := 0, overwritten := 0, unreadLost := 0,
    refusedMsgs := 0, refusedOther := 0 }

/-- R97 (contents unspecified at power-on: log 14), R126. -/
def Store.reset : Store := { mem := [], regions := Vector.replicate 4 Region.reset }

/-- R137: every counter is 0. -/
def LineStats.reset : LineStats :=
  { chars := 0, messages := 0, recorded := 0, filtered := 0, lost := 0, truncated := 0, parityChars := 0,
    framingChars := 0, noiseChars := 0, falseStarts := 0, breaks := 0, buckets := Vector.replicate 7 0, txOk := 0,
    txCollision := 0, txAborted := 0, txDeferred := 0, txRefused := 0 }

/-- R137. -/
def LinkStats.reset : LinkStats :=
  { framesOk := 0, checkErrors := 0, lengthErrors := 0, timeouts := 0, busyRefusals := 0 }

/-- R137, R147. -/
def Stats.reset : Stats :=
  { lines := Vector.replicate 4 LineStats.reset, eventsTaken := 0, eventsLost := 0, link := LinkStats.reset }

/-- The READY payload's cause code (R132). -/
def ResetCause.code : ResetCause → Byte
  | .power => 0
  | .pin => 1
  | .request => 2

/-- The byte receiver between bytes on a line at mark: it sees the next fall (R165, log 15). -/
def ByteReceiver.ready : ByteReceiver := { level := .mark, awaitingMark := false, current := none }

/-- The link controller after a reset: the READY notice is pending and nothing is on the wire (R175, R176, log 16). -/
def Link.afterReset (cause : ResetCause) (baud1 baud0 : PinLevel) : Link :=
  { baud1 := baud1, baud0 := baud0, bytes := ByteReceiver.ready, rx := .hunt, buffer := [], replies := [], wire := none,
    notices := [{ kind := .ready, payload := [cause.code] }], mask := 0x7F, cause := cause, resetTaken := false }

/-- The part after a reset, with capture memory as given. -/
def State.afterReset (cause : ResetCause) (baud1 baud0 : PinLevel) (mem : List Host.Cell) (free : Nat)
    (pending : List Instr) : State :=
  { lines := Vector.replicate 4 Line.reset, tb := TimeBase.reset, pins := Vector.replicate 2 InputPin.reset,
    timers := Vector.replicate 4 TimerUnit.reset, filters := Vector.replicate 32 Filter.reset,
    seq := Sequencer.reset, store := { mem := mem, regions := Vector.replicate 4 Region.reset },
    stats := Stats.reset, canned := Vector.replicate 8 none, link := Link.afterReset cause baud1 baud0,
    free := free, pending := pending }

/-- The machine right after power-on, both straps low (log 13), no command waiting. -/
def State.reset : State := State.afterReset .power .low .low [] 0 []

end Sys2Proof.Machine
end

