-- ==== Sys2Proof/Machine/Ops.lean ====
section
/-! DEFINITION. The shared operations: saturating counts, little-endian bytes and word fields, capture memory, the accessors of State, and the host link's replies and notices. -/

namespace Sys2Proof.Machine

/-! ### Counting and bytes -/

/-- One more, staying where it is from the maximum on (00_scope, Counters). -/
def satInc (max n : Nat) : Nat := if n < max then n + 1 else n

/-- `satInc` when the condition holds. -/
def satIncIf (c : Bool) (max n : Nat) : Nat := if c then satInc max n else n

/-- The number in little-endian bytes (00_scope, Byte order). -/
def natOfBytes : List Byte → Nat
  | [] => 0
  | b :: t => b.toNat + 256 * natOfBytes t

/-- `n` little-endian bytes of a number. -/
def bytesOfNat : Nat → Nat → List Byte
  | 0, _ => []
  | n + 1, v => BitVec.ofNat 8 (v % 256) :: bytesOfNat n (v / 256)

/-- A field of a word: `value` in `width` bits from bit `offset` (R127 to R129). -/
def wordField (value width offset : Nat) : Nat := value % 2 ^ width * 2 ^ offset

/-- A one-bit field of a word. -/
def wordBit (b : Bool) (offset : Nat) : Nat := if b then 2 ^ offset else 0

/-- The value of `width` bits of a word from bit `offset`. -/
def getField (w : Word) (width offset : Nat) : Nat := w.toNat / 2 ^ offset % 2 ^ width

/-- A byte with one bit for each condition, bit 0 first (R136). -/
def byteOfBits : List Bool → Byte
  | [] => 0
  | b :: t => (if b then 1 else 0) + 2 * byteOfBits t

/-- A set of lines or regions from its mask byte: a bit beyond member 3 is out of range (07 opening). -/
def quadSetOfByte (b : Byte) : Option QuadSet :=
  if b.toNat < 16 then some (BitVec.ofNat 4 b.toNat) else none

/-- A line, region or timer unit number: above 3 is out of range. -/
def quadOfByte (b : Byte) : Option (Fin 4) :=
  if h : b.toNat < 4 then some ⟨b.toNat, h⟩ else none

/-- Membership in a set of lines or regions. -/
def QuadSet.has (m : QuadSet) (i : Fin 4) : Bool := m.getLsbD i.val

/-- Membership in a set of condition flags. -/
def FlagSet.has (m : FlagSet) (f : FlagId) : Bool := m.getLsbD f.val

/-- The set holding one condition flag. -/
def flagBit (f : FlagId) : FlagSet := (1 : BitVec 8) <<< f.val

/-- The set holding an optional flag. -/
def flagBit? : Option FlagId → FlagSet
  | none => 0
  | some f => flagBit f

/-- The four regions in ascending order (log 12). -/
def quadList : List (Fin 4) := [0, 1, 2, 3]

/-- The level that drives or is read as a one (mark) or a zero (space) bit (R4). -/
def levelOfBit (b : Bool) : Level := if b then .mark else .space

/-- A pin level after the line sense (R3). -/
def Sense.apply : Sense → PinLevel → Level
  | .normal, .high => .mark
  | .normal, .low => .space
  | .inverted, .high => .space
  | .inverted, .low => .mark

/-- The pin level that drives a level under a line sense (R3: the transmit pin has the same sense). -/
def Sense.drive : Sense → Level → PinLevel
  | .normal, .mark => .high
  | .normal, .space => .low
  | .inverted, .mark => .low
  | .inverted, .space => .high

/-! ### Capture memory (R97) -/

/-- Bytes of capture memory. -/
def memBytes : Nat := 4 * Config.captureWords

/-- What a byte of capture memory that is not listed reads as (log 14). -/
def blankByte : Byte := 0

/-- The canonical form from address `lo` on: addresses strictly rising, inside capture memory, no blank byte listed. -/
def Memory.wfFrom : Nat → List Host.Cell → Bool
  | _, [] => true
  | lo, (a, v) :: t => decide (lo ≤ a) && decide (a < memBytes) && v != blankByte && Memory.wfFrom (a + 1) t

/-- The canonical form of capture memory. -/
def Memory.wf (m : List Host.Cell) : Bool := Memory.wfFrom 0 m

/-- Read one byte. -/
def Memory.readByte : List Host.Cell → Nat → Byte
  | [], _ => blankByte
  | (b, v) :: t, a => if a = b then v else Memory.readByte t a

/-- Put one byte into the sorted list; the blank value removes the entry. -/
def Memory.insert : List Host.Cell → Nat → Byte → List Host.Cell
  | [], a, v => if v = blankByte then [] else [(a, v)]
  | (b, w) :: t, a, v =>
    if a < b then (if v = blankByte then (b, w) :: t else (a, v) :: (b, w) :: t)
    else if a = b then (if v = blankByte then t else (b, v) :: t)
    else (b, w) :: Memory.insert t a v

/-- Write one byte. There is no byte beyond capture memory to write (R97; log 14). -/
def Memory.writeByte (m : List Host.Cell) (a : Nat) (v : Byte) : List Host.Cell :=
  if a < memBytes then Memory.insert m a v else m

/-- Read memory word `w`, least significant byte lowest. -/
def Memory.readWord (m : List Host.Cell) (w : Nat) : Word :=
  Memory.readByte m (4 * w + 3) ++ Memory.readByte m (4 * w + 2) ++ Memory.readByte m (4 * w + 1) ++
    Memory.readByte m (4 * w)

/-- The four bytes of a word, least significant first (R127). -/
def wordBytes (v : Word) : List Byte :=
  [v.extractLsb' 0 8, v.extractLsb' 8 8, v.extractLsb' 16 8, v.extractLsb' 24 8]

/-- Write bytes at consecutive addresses. -/
def Memory.writeBytes : List Host.Cell → Nat → List Byte → List Host.Cell
  | m, _, [] => m
  | m, a, b :: t => Memory.writeBytes (Memory.writeByte m a b) (a + 1) t

/-- Write memory word `w`. -/
def Memory.writeWord (m : List Host.Cell) (w : Nat) (v : Word) : List Host.Cell :=
  Memory.writeBytes m (4 * w) (wordBytes v)

/-! ### Accessors of State -/

def State.line (s : State) (i : LineId) : Line := s.lines[i]
def State.timer (s : State) (i : UnitId) : TimerUnit := s.timers[i]
def State.pin (s : State) (i : PinId) : InputPin := s.pins[i]
def State.region (s : State) (i : RegionId) : Region := s.store.regions[i]
def State.filter (s : State) (i : Fin 32) : Filter := s.filters[i]
def State.lineStats (s : State) (i : LineId) : LineStats := s.stats.lines[i]

def State.setLine (s : State) (i : LineId) (l : Line) : State := { s with lines := s.lines.set i l }
def State.setTimer (s : State) (i : UnitId) (t : TimerUnit) : State := { s with timers := s.timers.set i t }
def State.setPin (s : State) (i : PinId) (p : InputPin) : State := { s with pins := s.pins.set i p }
def State.setFilter (s : State) (i : Fin 32) (f : Filter) : State := { s with filters := s.filters.set i f }
def State.setTb (s : State) (tb : TimeBase) : State := { s with tb := tb }
def State.setSeq (s : State) (q : Sequencer) : State := { s with seq := q }
def State.setStore (s : State) (st : Store) : State := { s with store := st }
def State.setStats (s : State) (st : Stats) : State := { s with stats := st }
def State.setLink (s : State) (k : Link) : State := { s with link := k }

/-- One region replaced. -/
def Store.setRegion (st : Store) (i : RegionId) (r : Region) : Store := { st with regions := st.regions.set i r }

def State.setRegion (s : State) (i : RegionId) (r : Region) : State := s.setStore (s.store.setRegion i r)

/-- One line's LINE group replaced. -/
def State.setLineStats (s : State) (i : LineId) (ls : LineStats) : State :=
  s.setStats { s.stats with lines := s.stats.lines.set i ls }

def State.setCfg (s : State) (i : LineId) (c : LineSettings) : State := s.setLine i { s.line i with cfg := c }
def State.setRx (s : State) (i : LineId) (r : Receiver) : State := s.setLine i { s.line i with rx := r }
def State.setMsg (s : State) (i : LineId) (m : Option Message) : State := s.setLine i { s.line i with msg := m }
def State.setTx (s : State) (i : LineId) (u : TxUnit) : State := s.setLine i { s.line i with tx := u }

/-- One free choice taken. -/
def State.useFree (s : State) : State := { s with free := s.free + 1 }

/-- The epoch tag: the low 8 bits of the epoch (R39). -/
def State.epochTag (s : State) : Byte := s.tb.epoch.extractLsb' 0 8

/-! ### Replies and notices (R131, R132, R171, R172) -/

/-- Reply status values (R131). -/
inductive Status where
  | ok
  | busy
  | unknown
  | length
  | range
  | state
  | full
  | rule
  | tag
  deriving DecidableEq, Repr

/-- R131's status codes. -/
def Status.code : Status → Byte
  | .ok => 0
  | .busy => 1
  | .unknown => 2
  | .length => 3
  | .range => 4
  | .state => 5
  | .full => 6
  | .rule => 7
  | .tag => 8

/-- The bit of the notice mask that enables a kind (R132). -/
def NoticeKind.bit : NoticeKind → Nat
  | .ready => 0
  | .trigger => 1
  | .frozen _ => 2
  | .threshold _ => 3
  | .seqFault => 4
  | .txEmpty _ => 5
  | .linkFault => 6

/-- R171: a free transmitter sends the oldest reply, or with no reply the oldest pending notice. -/
def Link.choose (k : Link) : Link :=
  match k.wire with
  | some _ => k
  | none =>
    match k.replies with
    | r :: rest => { k with wire := some (.reply r), replies := rest }
    | [] =>
      match k.notices with
      | n :: rest => { k with wire := some (.notice n), notices := rest }
      | [] => k

/-- R172: the notice joins the set as the newest, or replaces the pending one of its kind and index in place. -/
def placeNotice (n : Notice) : List Notice → List Notice
  | [] => [n]
  | m :: t => if m.kind = n.kind then n :: t else m :: placeNotice n t

/-- R172, R173: a notice of an enabled kind is raised; an idle transmitter starts at once (R171). -/
def Link.raise (k : Link) (n : Notice) : Link :=
  if k.mask.getLsbD n.kind.bit then ({ k with notices := placeNotice n k.notices }).choose else k

/-- Notices raised one after another. -/
def Link.raiseAll (k : Link) : List Notice → Link
  | [] => k
  | n :: t => (k.raise n).raiseAll t

def State.raise (s : State) (n : Notice) : State := s.setLink (s.link.raise n)

/-- Busy replies that wait in the reply list (R169). -/
def Link.busyCount (k : Link) : Nat := (k.replies.filter (fun r => r.origin == .busy)).length

/-- Whether sync is held off (R169, R175). -/
def Link.syncHeld (k : Link) : Bool := decide (Config.busyHoldOff ≤ k.busyCount) || k.resetTaken

/-- A reply joins the reply list and an idle transmitter starts at once (R171). -/
def Link.addReply (k : Link) (r : Reply) : Link := ({ k with replies := k.replies ++ [r] }).choose

/-- A reply's code: the request's code with bit 7 set, or 0xFF for tag 0 (R131). -/
def replyCode (tag code : Byte) : Byte := if tag = 0 then 0xFF else code ||| 0x80

/-! ### The request handler (R169, R170) -/

/-- A request's outcome as its owning block forms it: the state after, the status and the reply content that
follows the status byte. -/
structure Answer where
  state : State
  status : Status
  content : List Byte

/-- OK with reply content. -/
def Answer.ok (s : State) (content : List Byte) : Answer := ⟨s, .ok, content⟩

/-- A refusal with a status byte alone: nothing changes (R131). -/
def Answer.refuse (s : State) (st : Status) : Answer := ⟨s, st, []⟩

/-- R170: the handler takes the oldest request when none is in handling (a request keeps its place until its reply
has been sent, R169) and no RESET has been taken (R175). With an empty buffer, no byte in reception and the frame
receiver hunting, the request's good frame arrives with the command (log 5). Answers the state with the request in handling. -/
def takeRequest (s : State) (req : Request) : Option State :=
  if s.link.resetTaken then none
  else
    match s.link.buffer with
    | [] =>
      if s.link.bytes.current = none && s.link.rx = .hunt && !s.link.syncHeld &&
          decide (req.payload.length ≤ 1024) then
        some { s with
          link := { s.link with bytes := ByteReceiver.ready, buffer := [{ request := req, inHandling := true }] }
          stats := { s.stats with
            link := { s.stats.link with framesOk := satInc Config.count32Max s.stats.link.framesOk } } }
      else none
    | b :: rest =>
      if !b.inHandling && b.request = req then
        some { s with link := { s.link with buffer := { b with inHandling := true } :: rest } }
      else none

/-- A notice whose sending is taken back stands at the front again; one of its kind and index that was raised
since replaces its payload (R172). -/
def takeBack (n : Notice) (ns : List Notice) : List Notice :=
  (ns.find? (fun m => m.kind == n.kind)).getD n :: ns.filter (fun m => m.kind != n.kind)

/-- R171: the handler's reply joins the reply list. `before` is the state in which the request was taken: when the
transmitter was idle and a notice raised by the same request is on the wire, either may have gone first (log 9). -/
def placeReply (before after : State) (r : Reply) : State :=
  match before.link.wire, after.link.wire with
  | none, some (.notice n) =>
    if Config.replyBeforeNotice after.free then
      after.useFree.setLink
        { after.link with wire := some (.reply r), notices := takeBack n after.link.notices }
    else after.useFree.setLink (after.link.addReply r)
  | _, _ => after.setLink (after.link.addReply r)

/-- The judgements of R131 and R170 on a request taken, then its owning block's act. -/
def judgeRequest (s : State) (req : Request) (fits : Nat → Bool) (act : State → List Byte → Answer) : Answer :=
  if req.tag = 0 then .refuse s .tag
  else if fits req.payload.length then act s req.payload
  else .refuse s .length

/-- A request taken, judged, carried out or refused, and answered (R170, R171). With no request to take, nothing
happens (log 1). -/
def serve (s : State) (req : Request) (fits : Nat → Bool) (act : State → List Byte → Answer) : State :=
  match takeRequest s req with
  | none => s
  | some s1 =>
    let a := judgeRequest s1 req fits act
    placeReply s1 a.state
      { tag := req.tag, code := replyCode req.tag req.code, payload := a.status.code :: a.content,
        origin := if a.state.link.resetTaken then .resetReply else .handler }

/-! ### Timer units (R51, R52) -/

/-- R51. -/
def TimerUnit.start (t : TimerUnit) : TimerUnit :=
  { t with count := 0, generation := t.generation + 1, state := .running }

/-- R52. -/
def TimerUnit.stop (t : TimerUnit) : TimerUnit := { t with state := .idle }

/-! ### The event queue and the sequencer's FAULT (R79, R89) -/

/-- The step that is current, when it is loaded. -/
def Sequencer.step? (q : Sequencer) : Option StepRecord := q.table[q.current.val]?

/-- R84 point 1, R87, R89: the guard unit of a step, if it has one, is stopped. -/
def State.stopGuard (s : State) (st : Option StepRecord) : State :=
  match st.bind (·.guard) with
  | none => s
  | some u => s.setTimer u (s.timer u).stop

/-- R132's codes of a fault cause. -/
def SeqFaultCause.code : SeqFaultCause → Byte
  | .none => 0
  | .eventLoss => 1
  | .emptyReturn => 2

/-- R89: the sequencer enters FAULT and raises SEQFAULT. -/
def State.seqFault (s : State) (cause : SeqFaultCause) : State :=
  (s.setSeq { s.seq with state := .fault, cause := cause }).raise
    { kind := .seqFault, payload := [cause.code, BitVec.ofNat 8 s.seq.current.val] }

/-- R79, R142: an event arrives at the queue; a full queue loses it, and an ARMED sequencer faults (R89). -/
def State.joinQueue (s : State) (e : SeqEvent) : State :=
  if s.seq.queue.length < Config.eventPlaces then
    s.setSeq { s.seq with queue := s.seq.queue ++ [e] }
  else
    let s1 := s.setStats { s.stats with eventsLost := satInc Config.count32Max s.stats.eventsLost }
    if s.seq.state = .armed then (s1.stopGuard s.seq.step?).seqFault .eventLoss else s1

end Sys2Proof.Machine
end

