-- ==== Sys2Proof/Machine/Flags.lean ====
section
/-! DEFINITION. What bits and flags are decided from: the majority of a slot, a character's data, parity and framing, the frame a transmit unit sends, a message's flags and status list, a step's condition. -/

namespace Sys2Proof.Machine

/-! ### Slots (R4, R6, R7) -/

/-- The majority of samples 7, 8 and 9 (R6, R7, R165). -/
def majority (v : Votes) : Level :=
  if v.s7 = v.s8 then v.s7 else v.s9

/-- Samples 7, 8 and 9 all agree (R6, R7). -/
def unanimous (v : Votes) : Bool := v.s7 == v.s8 && v.s8 == v.s9

/-- The format has a ninth bit (R1). -/
def Format.hasNinth : Format → Bool
  | .f8N => false
  | .f8E | .f8O | .f8A => true

/-- The number of stop bits. -/
def StopBits.count : StopBits → Nat
  | .one => 1
  | .two => 2

/-- The index of the first stop bit's slot: after the start bit, eight data bits and any ninth bit (R4). -/
def firstStopSlot (c : LineSettings) : Nat := if c.format.hasNinth then 10 else 9

/-- The index of the last stop bit's slot (R4). -/
def lastStopSlot (c : LineSettings) : Nat := firstStopSlot c + (c.stopBits.count - 1)

/-- A character time in bits (R1). -/
def charTime (c : LineSettings) : Nat := lastStopSlot c + 1

/-- Whether a level is mark, the value 1 of a bit (R4). -/
def isMark : Level → Bool
  | .mark => true
  | .space => false

/-- Bits, least significant first, as a byte. -/
def byteOfLevels (ls : List Level) : Byte := byteOfBits (ls.map isMark)

/-- The eight data bits put back into bit order (R4, R7). -/
def dataOfSlots (order : BitOrder) (slots : List Level) : Byte :=
  match order with
  | .lsbFirst => byteOfLevels (slots.take 8)
  | .msbFirst => byteOfLevels (slots.take 8).reverse

/-- Mark slots in a list of slots (R8). -/
def markCount (slots : List Level) : Nat := slots.countP isMark

/-- R8: the parity check on the eight data slots and the ninth slot fails. -/
def parityFails (f : Format) (slots : List Level) : Bool :=
  match f with
  | .f8N | .f8A => false
  | .f8E => markCount (slots.take 9) % 2 == 1
  | .f8O => markCount (slots.take 9) % 2 == 0

/-- R7: the address flag is the ninth bit of format 8A. -/
def addressFlag (f : Format) (slots : List Level) : Bool :=
  match f with
  | .f8A => (slots[8]?.map isMark).getD false
  | .f8N | .f8E | .f8O => false

/-- R8: the first stop bit, the last decided slot, is space. -/
def framingFails (slots : List Level) : Bool := slots.getLast? == some Level.space

/-- R9: every decided slot is space. -/
def allSpace (slots : List Level) : Bool := slots.all (· == Level.space)

/-! ### The character a transmit unit sends (R156) -/

/-- The eight data bits of a byte as levels, least significant first. -/
def levelsOfByte (b : Byte) : List Level :=
  [levelOfBit (b.getLsbD 0), levelOfBit (b.getLsbD 1), levelOfBit (b.getLsbD 2), levelOfBit (b.getLsbD 3),
   levelOfBit (b.getLsbD 4), levelOfBit (b.getLsbD 5), levelOfBit (b.getLsbD 6), levelOfBit (b.getLsbD 7)]

/-- R156: the ninth bit of a character; `addr` is the address flag option where it applies to this byte. -/
def ninthBit (f : Format) (b : Byte) (addr : Bool) : Option Level :=
  match f with
  | .f8N => none
  | .f8E => some (levelOfBit (markCount (levelsOfByte b) % 2 == 1))
  | .f8O => some (levelOfBit (markCount (levelsOfByte b) % 2 == 0))
  | .f8A => some (levelOfBit addr)

/-- R4, R156: the slots of a sent character: start, data in bit order, ninth bit if any, stop bits. -/
def sentSlots (c : LineSettings) (b : Byte) (ninth : Option Level) : List Level :=
  let data := match c.bitOrder with
    | .lsbFirst => levelsOfByte b
    | .msbFirst => (levelsOfByte b).reverse
  [Level.space] ++ data ++ ninth.toList ++ List.replicate c.stopBits.count Level.mark

/-! ### Message flags and the status list (R21 to R24) -/

/-- The flags of a message that opens with a character (R21). -/
def openingFlags (c : LineSettings) (ch : Character) : MsgFlags :=
  { par := false, frm := false, noi := false, trunc := false, own := ch.echo, coll := false,
    addrStart := ch.addr,
    orphan := decide (c.mode ≠ .gap) && decide (c.format = .f8A) && !ch.addr,
    statOvf := false }

/-- The status list entries a character adds, in order (R23). -/
def entryKinds (c : LineSettings) (ch : Character) (position : Nat) : List StatusKind :=
  (if ch.parity then [.parity] else []) ++ (if ch.framing then [.framing] else []) ++
    (if ch.noise then [.noise] else []) ++
    (if c.mode = .gap ∧ ch.addr = true ∧ position ≠ 0 then [.address] else [])

/-- R23: entries are stored while the list holds fewer than 8 and the position is at most 255; answers the list and
whether an entry was lost. -/
def addEntries (position : Nat) : List StatusKind → List StatusEntry → List StatusEntry × Bool
  | [], l => (l, false)
  | k :: t, l =>
    if l.length < Config.statusPlaces ∧ position ≤ 255 then
      addEntries position t (l ++ [{ position := position, kind := k }])
    else ((addEntries position t l).1, true)

/-- The header flags of an MSG record from bit 16 (R128). -/
def MsgFlags.headerBits (f : MsgFlags) (sliced : Bool) : Nat :=
  wordBit f.par 0 + wordBit f.frm 1 + wordBit f.noi 2 + wordBit f.trunc 3 + wordBit sliced 4 + wordBit f.own 5 +
    wordBit f.coll 6 + wordBit f.addrStart 7 + wordBit f.orphan 8 + wordBit f.statOvf 9

/-! ### Conditions of a step (R72, R82) -/

/-- The condition of a step holds. -/
def condHolds (st : StepRecord) (flags : FlagSet) : Bool :=
  match st.sense with
  | .any => flags &&& st.mask != 0
  | .all => flags &&& st.mask == st.mask

/-- The flags after a set is set and a set is cleared. -/
def applyFlags (flags toSet toClear : FlagSet) : FlagSet := (flags ||| toSet) &&& ~~~toClear

/-- TRIG_OUT is asserted (R93). -/
def TrigOut.asserted (o : TrigOut) : Bool := o.held || o.pulse.isSome

/-- The level of the TRIG_OUT pin (R93). -/
def TrigOut.pin (o : TrigOut) : PinLevel :=
  match o.idleLevel, o.asserted with
  | .low, false => .low
  | .low, true => .high
  | .high, false => .high
  | .high, true => .low

end Sys2Proof.Machine
end

