-- ==== Sys2Proof/Machine/Operands.lean ====
section
/-! DEFINITION. The operand forms: the payload fields of LINE_CONFIG (R133), the filter entry (R134) and the step record (R135), read from and written to their bytes. -/

namespace Sys2Proof.Machine

/-! ### Codes (R133) -/

def Format.ofCode (b : Byte) : Option Format :=
  if b = 0 then some .f8N else if b = 1 then some .f8E else if b = 2 then some .f8O
  else if b = 3 then some .f8A else none

def StopBits.ofCode (b : Byte) : Option StopBits :=
  if b = 1 then some .one else if b = 2 then some .two else none

def BitOrder.ofCode (b : Byte) : Option BitOrder :=
  if b = 0 then some .lsbFirst else if b = 1 then some .msbFirst else none

def Sense.ofCode (b : Byte) : Option Sense :=
  if b = 0 then some .normal else if b = 1 then some .inverted else none

def DelimMode.ofCode (b : Byte) : Option DelimMode :=
  if b = 0 then some .gap else if b = 1 then some .address else if b = 2 then some .addressGap else none

def Decision.ofCode (b : Byte) : Option Decision :=
  if b = 0 then some .record else if b = 1 then some .drop else none

/-- A no or yes code. -/
def boolOfCode (b : Byte) : Option Bool :=
  if b = 0 then some false else if b = 1 then some true else none

def PinFunction.ofCode (b : Byte) : Option PinFunction :=
  if b = 0 then some .off else if b = 1 then some .syncCapture else if b = 2 then some .syncRestart
  else if b = 3 then some .flag else none

def EdgeSelect.ofCode (b : Byte) : Option EdgeSelect :=
  if b = 0 then some .rising else if b = 1 then some .falling else if b = 2 then some .both else none

def TimerMode.ofCode (b : Byte) : Option TimerMode :=
  if b = 0 then some .once else if b = 1 then some .repeating else none

/-- A condition flag number: above F7 is out of range. -/
def flagOfByte (b : Byte) : Option FlagId :=
  if h : b.toNat < 8 then some ⟨b.toNat, h⟩ else none

/-- A flag byte: 0 to 7, or 0xFF for none; other values are out of range (R133, R134). -/
def flagOptOfByte (b : Byte) : Option (Option FlagId) :=
  if b = 0xFF then some none else (flagOfByte b).map some

/-- The flag byte of an optional flag. -/
def byteOfFlagOpt : Option FlagId → Byte
  | none => 0xFF
  | some f => BitVec.ofNat 8 f.val

/-- A value inside a range. -/
def inRange (lo hi n : Nat) : Option Nat := if lo ≤ n ∧ n ≤ hi then some n else none

/-! ### LINE_CONFIG (R1, R19, R133, R148) -/

/-- The settings in the 15 bytes after the line number; absent when a value is out of range (R2). -/
def parseLineSettings : List Byte → Option LineSettings
  | [d0, d1, fmt, stop, order, sense, mode, gap, m0, m1, region, dflt, permit, access, hold] => do
    let divisor ← inRange 0 4095 (natOfBytes [d0, d1])
    let format ← Format.ofCode fmt
    let stopBits ← StopBits.ofCode stop
    let bitOrder ← BitOrder.ofCode order
    let lineSense ← Sense.ofCode sense
    let delim ← DelimMode.ofCode mode
    let gapThreshold ← inRange 2 255 gap.toNat
    let maxLength ← inRange 1 256 (natOfBytes [m0, m1])
    let reg ← quadOfByte region
    let action ← Decision.ofCode dflt
    let permitted ← boolOfCode permit
    let turnaround ← inRange 1 16 hold.toNat
    pure { divisor := divisor, format := format, stopBits := stopBits, bitOrder := bitOrder, sense := lineSense,
           mode := delim, gapThreshold := gapThreshold, maxLength := maxLength, region := reg,
           defaultAction := action, txPermitted := permitted, accessGap := access.toNat, hold := turnaround }
  | _ => none

/-- R133's codes of the settings LINE_CONFIG carries. -/
def Format.code : Format → Byte
  | .f8N => 0
  | .f8E => 1
  | .f8O => 2
  | .f8A => 3

def StopBits.code : StopBits → Byte
  | .one => 1
  | .two => 2

def BitOrder.code : BitOrder → Byte
  | .lsbFirst => 0
  | .msbFirst => 1

def Sense.code : Sense → Byte
  | .normal => 0
  | .inverted => 1

def DelimMode.code : DelimMode → Byte
  | .gap => 0
  | .address => 1
  | .addressGap => 2

def Decision.code : Decision → Byte
  | .record => 0
  | .drop => 1

/-- R133: the 15 bytes that follow the line number in the LINE_CONFIG request for these settings. -/
def lineSettingsBytes (c : LineSettings) : List Byte :=
  bytesOfNat 2 c.divisor ++
    [c.format.code, c.stopBits.code, c.bitOrder.code, c.sense.code, c.mode.code, BitVec.ofNat 8 c.gapThreshold] ++
    bytesOfNat 2 c.maxLength ++
    [BitVec.ofNat 8 c.region.val, c.defaultAction.code, byteOfBits [c.txPermitted], BitVec.ofNat 8 c.accessGap,
      BitVec.ofNat 8 c.hold]

/-! ### The filter entry (R134) -/

/-- The two-bit code of byte 6 from bit `offset`. -/
def twoBits (b : Byte) (offset : Nat) : Nat := b.toNat / 2 ^ offset % 4

def AddressTest.ofCode (n : Nat) : Option AddressTest :=
  if n = 0 then some .any else if n = 1 then some .startOnly else if n = 2 then some .notStart else none

def ErrorClass.ofCode (n : Nat) : Option ErrorClass :=
  if n = 0 then some .any else if n = 1 then some .clean else if n = 2 then some .errored else none

def Origin.ofCode (n : Nat) : Option Origin :=
  if n = 0 then some .any else if n = 1 then some .ownOnly else if n = 2 then some .foreignOnly else none

def FilterAction.ofCode (n : Nat) : Option FilterAction :=
  if n = 0 then some .record else if n = 1 then some .drop else if n = 2 then some .count else none

def AddressTest.code : AddressTest → Nat
  | .any => 0
  | .startOnly => 1
  | .notStart => 2

def ErrorClass.code : ErrorClass → Nat
  | .any => 0
  | .clean => 1
  | .errored => 2

def Origin.code : Origin → Nat
  | .any => 0
  | .ownOnly => 1
  | .foreignOnly => 2

def FilterAction.code : FilterAction → Nat
  | .record => 0
  | .drop => 1
  | .count => 2

/-- R67, R134: an entry from its 14 bytes; absent when a value is out of range. -/
def parseFilterEntry : List Byte → Option FilterEntry
  | [b0, lines, fv, fm, sv, sm, codes, flag, n0, n1, x0, x1, s0, s1] => do
    let lineSet ← quadSetOfByte lines
    let address ← AddressTest.ofCode (twoBits codes 0)
    let errorClass ← ErrorClass.ofCode (twoBits codes 2)
    let origin ← Origin.ofCode (twoBits codes 4)
    let action ← FilterAction.ofCode (twoBits codes 6)
    let flagOpt ← flagOptOfByte flag
    let lenMin ← inRange 1 65535 (natOfBytes [n0, n1])
    let lenMax ← inRange lenMin 65535 (natOfBytes [x0, x1])
    let slice ← inRange 0 256 (natOfBytes [s0, s1])
    pure { enabled := b0.getLsbD 0, lines := lineSet, first := { value := fv, mask := fm },
           second := if b0.getLsbD 1 then some { value := sv, mask := sm } else none,
           address := address, lenMin := lenMin, lenMax := lenMax, errorClass := errorClass, origin := origin,
           action := action, flag := flagOpt, slice := slice }
  | _ => none

/-- R69, R134: the 14 bytes of an entry; an absent second-byte test reads as bit 1 clear and two bytes 0. -/
def filterEntryBytes (e : FilterEntry) : List Byte :=
  let second := e.second.getD { value := 0, mask := 0 }
  [byteOfBits [e.enabled, e.second.isSome], BitVec.ofNat 8 e.lines.toNat, e.first.value, e.first.mask,
    second.value, second.mask,
    BitVec.ofNat 8 (e.address.code + 4 * e.errorClass.code + 16 * e.origin.code + 64 * e.action.code),
    byteOfFlagOpt e.flag] ++
    bytesOfNat 2 e.lenMin ++ bytesOfNat 2 e.lenMax ++ bytesOfNat 2 e.slice

/-! ### The step record (R135) -/

/-- A target code: 0 to 15 a step, 0x40 FIRE, 0x41 RETURN. -/
def ExitTarget.ofCode (n : Nat) : Option ExitTarget :=
  if h : n < 16 then some (.step ⟨n, h⟩) else if n = 0x40 then some .fire else if n = 0x41 then some .ret else none

/-- A guard byte: 0 to 3, or 0xFF for none. -/
def guardOfByte (b : Byte) : Option (Option UnitId) :=
  if b = 0xFF then some none else (quadOfByte b).map some

/-- An action code with its operand; absent above 8. -/
def StepAction.ofCodes (code operand : Byte) : Option StepAction :=
  if code = 0 then some .none
  else if code = 1 then (quadOfByte operand).map .startTimer
  else if code = 2 then (quadOfByte operand).map .stopTimer
  else if code = 3 then (quadOfByte operand).map .captureTimer
  else if code = 4 then (flagOfByte operand).map .setFlag
  else if code = 5 then (flagOfByte operand).map .clearFlag
  else if code = 6 then some (.mark operand)
  else if code = 7 then some .pulse
  else if code = 8 then (flagOfByte operand).map .send
  else Option.none

def ActionTiming.ofCode (n : Nat) : Option ActionTiming :=
  if n = 0 then some .each else if n = 1 then some .exit else if n = 2 then some .onElse else none

/-- R73, R135: a step record from its 12 bytes; absent when a value is out of range. -/
def parseStep : List Byte → Option StepRecord
  | [mask, opts, n0, n1, guard, exit, els, action, operand, _, _, _] => do
    let timing ← ActionTiming.ofCode (twoBits opts 2)
    let guardOpt ← guardOfByte guard
    let target ← ExitTarget.ofCode (exit.toNat % 128)
    let elseTarget ← match guardOpt with
      | none => some none
      | some _ => (ExitTarget.ofCode (els.toNat % 128)).map some
    let act ← StepAction.ofCodes action operand
    pure { mask := mask, sense := if opts.getLsbD 0 then .all else .any, occurrences := natOfBytes [n0, n1],
           guard := guardOpt, matchKind := if exit.getLsbD 7 then .call else .go, matchTarget := target,
           elseTarget := elseTarget, action := act, timing := timing, consume := opts.getLsbD 1 }
  | _ => none

/-- R135's code of a target. -/
def ExitTarget.code : ExitTarget → Nat
  | .step i => i.val
  | .fire => 0x40
  | .ret => 0x41

/-- R135's code of an action and its operand; the operand is 0 where none is read. -/
def StepAction.codes : StepAction → Byte × Byte
  | .none => (0, 0)
  | .startTimer u => (1, BitVec.ofNat 8 u.val)
  | .stopTimer u => (2, BitVec.ofNat 8 u.val)
  | .captureTimer u => (3, BitVec.ofNat 8 u.val)
  | .setFlag f => (4, BitVec.ofNat 8 f.val)
  | .clearFlag f => (5, BitVec.ofNat 8 f.val)
  | .mark v => (6, v)
  | .pulse => (7, 0)
  | .send c => (8, BitVec.ofNat 8 c.val)

/-- R135's code of a timing. -/
def ActionTiming.code : ActionTiming → Nat
  | .each => 0
  | .exit => 1
  | .onElse => 2

/-- R135: the 12 bytes of a step record. -/
def stepBytes (st : StepRecord) : List Byte :=
  [st.mask,
    BitVec.ofNat 8 ((if st.sense = .all then 1 else 0) + (if st.consume then 2 else 0) + 4 * st.timing.code)] ++
    bytesOfNat 2 st.occurrences ++
    [match st.guard with | none => 0xFF | some u => BitVec.ofNat 8 u.val,
      BitVec.ofNat 8 (st.matchTarget.code + (if st.matchKind = .call then 128 else 0)),
      match st.elseTarget with | none => 0 | some t => BitVec.ofNat 8 t.code,
      st.action.codes.1, st.action.codes.2, 0, 0, 0]

/-- R73: a whole table from its bytes, 12 to a step; absent when any step's value is out of range. The first
argument is the number of steps. -/
def parseTable : Nat → List Byte → Option (List StepRecord)
  | 0, _ => some []
  | n + 1, bs => do
    let st ← parseStep (bs.take 12)
    let rest ← parseTable n (bs.drop 12)
    pure (st :: rest)

/-- A target that is a step at or above the loaded count (R74). -/
def ExitTarget.beyond (loaded : Nat) : ExitTarget → Bool
  | .step i => decide (loaded ≤ i.val)
  | .fire => false
  | .ret => false

/-- R74: a step breaks one of the seven rules; `index` is its place and `loaded` the loaded count. -/
def StepRecord.breaksRule (loaded index : Nat) (st : StepRecord) : Bool :=
  st.mask == 0 ||
  st.occurrences == 0 ||
  st.matchTarget.beyond loaded ||
  (match st.guard, st.elseTarget with
    | some _, some t => t.beyond loaded
    | _, _ => false) ||
  (st.matchKind == .call && index + 1 == loaded) ||
  (st.timing == .onElse && st.guard.isNone) ||
  (match st.action with
    | .startTimer u => st.guard == some u
    | .stopTimer u => st.guard == some u
    | _ => false)

/-- R74: the lowest-numbered step that breaks a rule. -/
def firstBreak (loaded : Nat) : Nat → List StepRecord → Option Nat
  | _, [] => none
  | i, st :: rest => if st.breaksRule loaded i then some i else firstBreak loaded (i + 1) rest

end Sys2Proof.Machine
end

