-- ==== Sys2Proof/Machine/Filter.lean ====
section
/-! DEFINITION. The filter table: the tests, the match set and the answer (R57 to R66), and the requests that change and read entries (R67 to R69). -/

namespace Sys2Proof.Machine

/-- The properties of a completed message that the assembler hands to the table (R29). -/
structure MsgProps where
  line : LineId
  received : Nat
  first : Byte
  second : Option Byte
  addrStart : Bool
  /-- PAR, FRM, NOI or TRUNC (R61) -/
  errored : Bool
  own : Bool
  deriving DecidableEq, Repr

/-- R29: the properties of a message. -/
def Message.props (line : LineId) (m : Message) : MsgProps :=
  { line := line, received := m.received, first := m.lead0, second := m.lead1, addrStart := m.flags.addrStart,
    errored := m.flags.par || m.flags.frm || m.flags.noi || m.flags.trunc, own := m.flags.own }

/-- R58: the byte and the value agree in every bit position of the mask. -/
def ByteTest.passes (t : ByteTest) (b : Byte) : Bool := (b ^^^ t.value) &&& t.mask == 0

/-- R59: an absent test passes; a present one needs a second byte. -/
def secondPasses (t : Option ByteTest) (second : Option Byte) : Bool :=
  match t with
  | none => true
  | some bt =>
    match second with
    | none => false
    | some b => bt.passes b

/-- R60. -/
def AddressTest.passes (t : AddressTest) (addrStart : Bool) : Bool :=
  match t with
  | .any => true
  | .startOnly => addrStart
  | .notStart => !addrStart

/-- R61. -/
def ErrorClass.passes (t : ErrorClass) (errored : Bool) : Bool :=
  match t with
  | .any => true
  | .clean => !errored
  | .errored => errored

/-- R61. -/
def Origin.passes (t : Origin) (own : Bool) : Bool :=
  match t with
  | .any => true
  | .ownOnly => own
  | .foreignOnly => !own

/-- The entry matches: it is enabled, the line is in its mask and each of its tests passes (section 4.2). -/
def FilterEntry.matchesMsg (e : FilterEntry) (p : MsgProps) : Bool :=
  e.enabled && QuadSet.has e.lines p.line && e.first.passes p.first && secondPasses e.second p.second &&
    e.address.passes p.addrStart && decide (e.lenMin ≤ p.received) && decide (p.received ≤ e.lenMax) &&
    e.errorClass.passes p.errored && e.origin.passes p.own

/-- R62: a matching entry counts a hit. -/
def Filter.count (p : MsgProps) (f : Filter) : Filter :=
  { f with hits := satIncIf (f.entry.matchesMsg p) Config.count32Max f.hits }

/-- R63: the union of the matching entries' flags. -/
def flagUnion (p : MsgProps) : List Filter → FlagSet
  | [] => 0
  | f :: t => (if f.entry.matchesMsg p then flagBit? f.entry.flag else 0) ||| flagUnion p t

/-- R64: the lowest-numbered matching entry whose action is RECORD or DROP, with its index. -/
def decidingEntry (p : MsgProps) : Nat → List Filter → Option (Nat × FilterEntry)
  | _, [] => none
  | i, f :: t =>
    if f.entry.matchesMsg p ∧ f.entry.action ≠ .count then some (i, f.entry) else decidingEntry p (i + 1) t

/-- The table's answer to the assembler (R29). -/
structure FilterAnswer where
  decision : Decision
  index : Option Nat
  slice : Nat
  flags : FlagSet
  deriving DecidableEq, Repr

/-- R63 to R65: the answer for a message; with no deciding entry, the line's default action and no slice. -/
def filterAnswer (p : MsgProps) (dflt : Decision) (table : List Filter) : FilterAnswer :=
  match decidingEntry p 0 table with
  | none => { decision := dflt, index := none, slice := 256, flags := flagUnion p table }
  | some (i, e) =>
    { decision := if e.action = .drop then .drop else .record, index := some i,
      slice := if e.action = .drop then 256 else e.slice, flags := flagUnion p table }

/-- The table after an evaluation: the match set's hits are counted (R62). -/
def State.countHits (s : State) (p : MsgProps) : State := { s with filters := s.filters.map (Filter.count p) }

/-! ### Requests -/

/-- An entry index: above 31 is out of range. -/
def filterIndex (b : Byte) : Option (Fin 32) :=
  if h : b.toNat < 32 then some ⟨b.toNat, h⟩ else none

/-- R67: FILTER_WRITE. -/
def filterWrite (s : State) (index : Byte) (bytes : List Byte) : Answer :=
  match filterIndex index with
  | none => .refuse s .range
  | some i =>
    if (s.filter i).entry.enabled then .refuse s .state
    else
      match parseFilterEntry bytes with
      | none => .refuse s .range
      | some e => .ok (s.setFilter i { s.filter i with entry := e }) []

/-- The set of enabled entries as a 32-bit mask, bit n for entry n (R133). -/
def enabledMask : List Filter → Nat
  | [] => 0
  | f :: t => (if f.entry.enabled then 1 else 0) + 2 * enabledMask t

/-- An entry's enabled field after FILTER_ENABLE (R68). -/
def Filter.enableBy (toEnable toDisable : BitVec 32) (i : Nat) (f : Filter) : Filter :=
  { f with entry := { f.entry with
      enabled := (f.entry.enabled || toEnable.getLsbD i) && !toDisable.getLsbD i } }

/-- R68: FILTER_ENABLE. -/
def filterEnable (s : State) (toEnable toDisable : BitVec 32) : Answer :=
  if toEnable &&& toDisable ≠ 0 then .refuse s .range
  else
    let table := s.filters.mapIdx (fun i f => f.enableBy toEnable toDisable i)
    .ok { s with filters := table } (bytesOfNat 4 (enabledMask table.toList))

/-- R69: FILTER_READ. -/
def filterRead (s : State) (index : Byte) : Answer :=
  match filterIndex index with
  | none => .refuse s .range
  | some i => .ok s (index :: filterEntryBytes (s.filter i).entry)

end Sys2Proof.Machine
end

