-- ==== Sys2Proof/Machine/Stats.lean ====
section
/-! DEFINITION. The Statistics Unit: the reports that move its counters (R137 to R143) and STATS_READ (R144). -/

namespace Sys2Proof.Machine

/-- One more on a 32-bit counter (R137). -/
def inc32 (n : Nat) : Nat := satInc Config.count32Max n

/-- One more on a 32-bit counter when the condition holds. -/
def inc32If (c : Bool) (n : Nat) : Nat := satIncIf c Config.count32Max n

/-- R138: a delivered character. -/
def LineStats.character (g : LineStats) (ch : Character) : LineStats :=
  { g with
    chars := satInc Config.charsMax g.chars
    parityChars := inc32If ch.parity g.parityChars
    framingChars := inc32If ch.framing g.framingChars
    noiseChars := inc32If ch.noise g.noiseChars }

/-- R138: a false start. -/
def LineStats.falseStart (g : LineStats) : LineStats := { g with falseStarts := inc32 g.falseStarts }

/-- R138: a break event delivered. -/
def LineStats.breakSeen (g : LineStats) : LineStats := { g with breaks := inc32 g.breaks }

/-- Outcomes of a completed message (R31, R139). -/
inductive MsgOutcome where
  | recorded
  | filtered
  | lost
  deriving DecidableEq, Repr

/-- R140: the size bucket of a received count. -/
def sizeBucket (received : Nat) : Fin 7 :=
  if received ≤ 1 then 0 else if received ≤ 3 then 1 else if received ≤ 7 then 2 else if received ≤ 15 then 3
  else if received ≤ 63 then 4 else if received ≤ 255 then 5 else 6

/-- R139, R140: a completion's report, taken as one act. -/
def LineStats.completion (g : LineStats) (o : MsgOutcome) (received : Nat) (trunc : Bool) : LineStats :=
  { g with
    messages := inc32 g.messages
    recorded := inc32If (o == .recorded) g.recorded
    filtered := inc32If (o == .filtered) g.filtered
    lost := inc32If (o == .lost) g.lost
    truncated := inc32If trunc g.truncated
    buckets := g.buckets.set (sizeBucket received) (inc32 g.buckets[sizeBucket received]) }

/-- R141: a transmission's outcome. -/
def LineStats.txOutcome (g : LineStats) (o : TxOutcome) : LineStats :=
  match o with
  | .ok => { g with txOk := inc32 g.txOk }
  | .collision => { g with txCollision := inc32 g.txCollision }
  | .aborted => { g with txAborted := inc32 g.txAborted }

/-- R141: a deferral. -/
def LineStats.deferral (g : LineStats) : LineStats := { g with txDeferred := inc32 g.txDeferred }

/-- R141: a dropped SEND action. -/
def LineStats.sendDropped (g : LineStats) : LineStats := { g with txRefused := inc32 g.txRefused }

/-- A report to one line's group. -/
def State.report (s : State) (i : LineId) (f : LineStats → LineStats) : State := s.setLineStats i (f (s.lineStats i))

/-- A report to the LINK group. -/
def State.reportLink (s : State) (f : LinkStats → LinkStats) : State :=
  s.setStats { s.stats with link := f s.stats.link }

/-- R142: an event is taken. -/
def State.countTaken (s : State) : State := s.setStats { s.stats with eventsTaken := inc32 s.stats.eventsTaken }

/-! ### STATS_READ (R136, R144) -/

/-- A LINE group's counters in R136's order. -/
def LineStats.bytes (g : LineStats) : List Byte :=
  bytesOfNat 6 g.chars ++
    ([g.messages, g.recorded, g.filtered, g.lost, g.truncated, g.parityChars, g.framingChars, g.noiseChars,
      g.falseStarts, g.breaks] ++ g.buckets.toList ++
      [g.txOk, g.txCollision, g.txAborted, g.txDeferred, g.txRefused]).flatMap (bytesOfNat 4)

/-- A REGION group's counters (R136). -/
def Region.counterBytes (r : Region) : List Byte :=
  [r.written, r.overwritten, r.unreadLost, r.refusedMsgs, r.refusedOther].flatMap (bytesOfNat 4)

/-- The LINK group's counters (R136). -/
def LinkStats.bytes (g : LinkStats) : List Byte :=
  [g.framesOk, g.checkErrors, g.lengthErrors, g.timeouts, g.busyRefusals].flatMap (bytesOfNat 4)

/-- The FILTERS group's counters (R136). -/
def hitBytes (table : Vector Filter 32) : List Byte := (table.toList.map (·.hits)).flatMap (bytesOfNat 4)

/-- R125: the region counters set to 0. -/
def Region.clearCounters (r : Region) : Region :=
  { r with written := 0, overwritten := 0, unreadLost := 0, refusedMsgs := 0, refusedOther := 0 }

/-- Counter groups (R136, R137). -/
inductive StatsGroup where
  | line (i : LineId)
  | filters
  | region (i : RegionId)
  | seq
  | link
  deriving DecidableEq, Repr

/-- R137's group codes. -/
def StatsGroup.ofCode (b : Byte) : Option StatsGroup :=
  if h : b.toNat < 4 then some (.line ⟨b.toNat, h⟩)
  else if b = 4 then some .filters
  else if h : b.toNat - 5 < 4 then some (.region ⟨b.toNat - 5, h⟩)
  else if b = 9 then some .seq
  else if b = 10 then some .link
  else none

/-- A group's counters as it stands (R144). -/
def State.groupBytes (s : State) : StatsGroup → List Byte
  | .line i => (s.lineStats i).bytes
  | .filters => hitBytes s.filters
  | .region i => (s.region i).counterBytes
  | .seq => [s.stats.eventsTaken, s.stats.eventsLost].flatMap (bytesOfNat 4)
  | .link => s.stats.link.bytes

/-- R144: every counter of one group set to 0. -/
def State.clearGroup (s : State) : StatsGroup → State
  | .line i => s.setLineStats i LineStats.reset
  | .filters => { s with filters := s.filters.map (fun f => { f with hits := 0 }) }
  | .region i => s.setRegion i (s.region i).clearCounters
  | .seq => s.setStats { s.stats with eventsTaken := 0, eventsLost := 0 }
  | .link => s.setStats { s.stats with link := LinkStats.reset }

/-- R144: STATS_READ. -/
def statsRead (s : State) (group clear : Byte) : Answer :=
  match StatsGroup.ofCode group with
  | none => .refuse s .range
  | some g =>
    if clear = 0 then .ok s (group :: s.groupBytes g)
    else if clear = 1 then .ok (s.clearGroup g) (group :: s.groupBytes g)
    else .refuse s .range

end Sys2Proof.Machine
end

