-- ==== Sys2Proof/Machine/Store.lean ====
section
/-! DEFINITION. The capture store: record words (R127 to R129), the ring of a region, offering, overwriting, freezing, the threshold, reading, releasing and rewinding (R97 to R126). -/

namespace Sys2Proof.Machine

/-! ### Record words (R127 to R129) -/

/-- Record kinds (R127). -/
inductive RecKind where
  | msg
  | brk
  | epoch
  | sync
  | meas
  | mark
  | trig
  | loss
  deriving DecidableEq, Repr

/-- R127's kind codes. -/
def RecKind.code : RecKind → Nat
  | .msg => 1
  | .brk => 2
  | .epoch => 3
  | .sync => 4
  | .meas => 5
  | .mark => 6
  | .trig => 7
  | .loss => 8

/-- A record as offered: its kind and its words, the header first. -/
structure Rec where
  kind : RecKind
  words : List Word
  deriving DecidableEq, Repr

/-- The record's size in words. -/
def Rec.size (r : Rec) : Nat := r.words.length

/-- The header word of a record (R127); `flags` are bits 16 to 27 as a number from bit 0. -/
def headerWord (kind : RecKind) (source endCause size flags entries : Nat) : Word :=
  BitVec.ofNat 32 (wordField kind.code 4 0 + wordField source 2 4 + wordField endCause 2 6 + wordField size 8 8 +
    wordField flags 12 16 + wordField entries 4 28)

/-- The record size a header carries (R127). -/
def headerSize (h : Word) : Nat := getField h 8 8

/-- The record kind code a header carries (R127). -/
def headerKind (h : Word) : Nat := getField h 4 0

/-- A word holding a low field and an epoch tag in bits 24 to 31 (R128, R129). -/
def taggedWord (low : Nat) (tag : Byte) : Word := BitVec.ofNat 32 (wordField low 24 0 + wordField tag.toNat 8 24)

/-- R129: BRK. Header flags: bit 16 CUT, bit 21 OWN. -/
def brkRecord (line : LineId) (b : BreakInfo) : Rec :=
  { kind := .brk
    words := [headerWord .brk line.val 0 3 (wordBit b.cut 0 + wordBit b.echo 5) 0, b.startTime,
      taggedWord b.duration b.startTag] }

/-- R129: EPOCH. The cause is WRAP with no pin, or SYNC with the pin. -/
def epochRecord (epoch : BitVec 16) (pin : Option PinId) : Rec :=
  { kind := .epoch
    words := [headerWord .epoch 0 0 2 0 0,
      BitVec.ofNat 32 (wordField epoch.toNat 16 0 + wordBit pin.isSome 16 +
        wordField (match pin with | none => 0 | some p => p.val) 2 18)] }

/-- R129: SYNC. -/
def syncRecord (pin : PinId) (e : Edge) (time : Word) (tag : Byte) : Rec :=
  { kind := .sync
    words := [headerWord .sync pin.val 0 3 0 0, time, taggedWord (if e = .falling then 1 else 0) tag] }

/-- R129: MEAS. -/
def measRecord (unit : UnitId) (count : Nat) (time : Word) (tag : Byte) : Rec :=
  { kind := .meas, words := [headerWord .meas unit.val 0 3 0 0, time, taggedWord count tag] }

/-- R129: MARK. -/
def markRecord (step : Fin 16) (value : Byte) (time : Word) (tag : Byte) : Rec :=
  { kind := .mark
    words := [headerWord .mark 0 0 3 0 0, time,
      taggedWord (wordField step.val 4 0 + wordField value.toNat 8 8) tag] }

/-- R129's codes of a fire cause. -/
def FireCause.code : FireCause → Nat
  | .matched => 0
  | .elsed => 1
  | .forced => 2

/-- R129: TRIG. -/
def trigRecord (f : FireRecord) : Rec :=
  { kind := .trig
    words := [headerWord .trig 0 0 3 0 0, f.time,
      taggedWord (wordField f.step.val 4 0 + wordField f.cause.code 2 8) f.tag] }

/-- R111, R129: the words of a LOSS record. -/
def lossWords (msgs other : Nat) : List Word :=
  [headerWord .loss 0 0 2 0 0, BitVec.ofNat 32 (wordField msgs 16 0 + wordField other 16 16)]

/-! ### The ring (R101) -/

/-- A region's size in words (R97). -/
def Region.words (r : Region) : Nat := Config.blockWords * r.size

/-- Free words (R101). -/
def Region.free (r : Region) : Nat := r.words - r.used

/-- The position `n` words after `p` in the ring: the word after the last position is position 0 (R97). -/
def Region.advance (r : Region) (p n : Nat) : Nat := (p + n) % r.words

/-- The memory word of a position (R97). -/
def Region.wordAt (r : Region) (p : Nat) : Nat := Config.blockWords * r.base + p

/-- The header of the record at a position. -/
def Region.headerAt (m : List Host.Cell) (r : Region) (p : Nat) : Word := Memory.readWord m (r.wordAt p)

/-- Words written at consecutive positions of the ring. -/
def Region.writeWords (r : Region) : List Host.Cell → Nat → List Word → List Host.Cell
  | m, _, [] => m
  | m, p, w :: t => Region.writeWords r (Memory.writeWord m (r.wordAt p) w) (r.advance p 1) t

/-- Words read from consecutive positions of the ring. -/
def Region.readWords (r : Region) (m : List Host.Cell) : Nat → Nat → List Word
  | 0, _ => []
  | n + 1, p => Memory.readWord m (r.wordAt p) :: Region.readWords r m n (r.advance p 1)

/-- A region with the memory it stands in. -/
structure Placed where
  mem : List Host.Cell
  region : Region

/-- R107 points 2 and 3: one record is written at the tail. -/
def Placed.write (p : Placed) (ws : List Word) : Placed :=
  { mem := p.region.writeWords p.mem p.region.tail ws
    region := { p.region with
      tail := p.region.advance p.region.tail ws.length
      used := p.region.used + ws.length
      unread := p.region.unread + ws.length
      count := p.region.count + 1
      written := satInc Config.count32Max p.region.written } }

/-- The cursor stands at the head record: every held record is unread (R101). -/
def Region.cursorAtHead (r : Region) : Bool := r.unread == r.used

/-- R108: the record at the head is discarded. -/
def Region.discard (m : List Host.Cell) (r : Region) : Region :=
  let h := r.headerAt m r.head
  let newHead := r.advance r.head (headerSize h)
  { r with
    head := newHead
    cursor := if r.cursorAtHead then newHead else r.cursor
    used := r.used - headerSize h
    unread := if r.cursorAtHead then r.unread - headerSize h else r.unread
    count := r.count - 1
    overwritten := satInc Config.count32Max r.overwritten
    unreadLost := satIncIf r.cursorAtHead Config.count32Max r.unreadLost
    hasTrig := r.hasTrig && headerKind h != RecKind.trig.code }

/-- R108: whole records are discarded from the head, oldest first, until the free words are at least `need`. The
first argument bounds the discards by the records held. -/
def Region.makeRoom (m : List Host.Cell) : Nat → Region → Nat → Region
  | 0, r, _ => r
  | n + 1, r, need => if need ≤ r.free then r else Region.makeRoom m n (r.discard m) need

/-! ### Offering (R105 to R118) -/

/-- What an offer leaves: the region in its memory, whether the record was written, and the notices raised. -/
structure Offered where
  placed : Placed
  recorded : Bool
  notices : List Notice

/-- R116: the region enters FROZEN with these flags and raises FROZEN. -/
def Region.freeze (id : RegionId) (short trigMissing : Bool) (r : Region) : Region × List Notice :=
  ({ r with state := .frozen, short := short, trigMissing := trigMissing },
    [{ kind := .frozen id, payload := [BitVec.ofNat 8 id.val, byteOfBits [short, trigMissing]] }])

/-- R118: the threshold is judged once an act that changes the used words is complete. -/
def Region.judgeThreshold (id : RegionId) (r : Region) : Region × List Notice :=
  if r.threshold ≠ 0 ∧ r.threshold ≤ r.used then
    if r.crossed then (r, [])
    else
      ({ r with crossed := true },
        [{ kind := .threshold id, payload := BitVec.ofNat 8 id.val :: bytesOfNat 2 r.used }])
  else ({ r with crossed := false }, [])

/-- R107 point 4: what a written record does to the region's state (R113, R115). -/
def Region.afterWrite (id : RegionId) (kind : RecKind) (r : Region) : Region × List Notice :=
  match kind with
  | .trig =>
    let r1 := { r with hasTrig := true }
    if r1.quota = 0 then r1.freeze id false false else ({ r1 with state := .postfill }, [])
  | .msg | .brk =>
    if r.state = .postfill then
      let r1 := { r with quota := r.quota - 1 }
      if r1.quota = 0 then r1.freeze id false false else (r1, [])
    else (r, [])
  | .epoch | .sync | .meas | .mark | .loss => (r, [])

/-- Some refusals are not yet reported in a LOSS record (R107). -/
def Region.refusalsPending (r : Region) : Bool := r.pendMsgs != 0 || r.pendOther != 0

/-- R107 point 1: a LOSS record reports the pending refusals (R111). -/
def Placed.writeLoss (p : Placed) : Placed :=
  if p.region.refusalsPending then
    Placed.write { p with region := { p.region with pendMsgs := 0, pendOther := 0 } }
      (lossWords p.region.pendMsgs p.region.pendOther)
  else p

/-- R107: an admitted record is written, with a LOSS record before it when refusals are pending. -/
def Placed.takeIn (id : RegionId) (p : Placed) (rec : Rec) : Offered :=
  let p2 := p.writeLoss.write rec.words
  let (r3, n3) := p2.region.afterWrite id rec.kind
  let (r4, n4) := r3.judgeThreshold id
  { placed := { p2 with region := r4 }, recorded := true, notices := n3 ++ n4 }

/-- R125: the counter of a refused record. -/
def Region.countRefused (kind : RecKind) (r : Region) : Region :=
  match kind with
  | .msg => { r with refusedMsgs := satInc Config.count32Max r.refusedMsgs }
  | .brk | .epoch | .sync | .meas | .mark | .trig | .loss =>
    { r with refusedOther := satInc Config.count32Max r.refusedOther }

/-- R109: the pending count of a record refused for lack of room. -/
def Region.countPending (kind : RecKind) (r : Region) : Region :=
  match kind with
  | .msg => { r with pendMsgs := satInc Config.count16Max r.pendMsgs }
  | .brk | .epoch | .sync | .meas | .mark | .trig | .loss =>
    { r with pendOther := satInc Config.count16Max r.pendOther }

/-- R109: refused under STOP in RUN or ARMED. -/
def Placed.refuseForRoom (p : Placed) (kind : RecKind) : Offered :=
  { placed := { p with region := (p.region.countRefused kind).countPending kind }, recorded := false, notices := [] }

/-- R112, R114: refused, and the region freezes. -/
def Placed.refuseAndFreeze (id : RegionId) (p : Placed) (kind : RecKind) (short trigMissing : Bool) : Offered :=
  let (r1, n1) := (p.region.countRefused kind).freeze id short trigMissing
  { placed := { p with region := r1 }, recorded := false, notices := n1 }

/-- The room a record needs: two words more while refusals are pending (R107). -/
def Region.roomNeeded (r : Region) (rec : Rec) : Nat := rec.size + (if r.refusalsPending then 2 else 0)

/-- R108 to R114: a record received by a region in RUN, ARMED or POSTFILL. -/
def Placed.receive (id : RegionId) (p : Placed) (rec : Rec) : Offered :=
  let need := p.region.roomNeeded rec
  if need ≤ p.region.free then p.takeIn id rec
  else if p.region.state = .postfill then p.refuseAndFreeze id rec.kind true false
  else
    match p.region.policy with
    | .roll =>
      let p1 : Placed := { p with region := Region.makeRoom p.mem p.region.count p.region need }
      -- the test fails only in states no run reaches: a region holds at least 128 words (R108; log 19)
      if need ≤ p1.region.free then p1.takeIn id rec else p.refuseForRoom rec.kind
    | .stop =>
      if rec.kind = .trig then p.refuseAndFreeze id rec.kind false true else p.refuseForRoom rec.kind

/-- R105, R106: a record reaches a region by an offer. -/
def Placed.offer (id : RegionId) (p : Placed) (rec : Rec) : Offered :=
  match p.region.state with
  | .disabled | .stopped | .frozen =>
    if rec.kind = .msg ∨ rec.kind = .brk then
      { placed := { p with region := p.region.countRefused rec.kind }, recorded := false, notices := [] }
    else { placed := p, recorded := false, notices := [] }
  | .armed => p.receive id rec
  | .run | .postfill =>
    if rec.kind = .trig then { placed := p, recorded := false, notices := [] } else p.receive id rec

/-- The store and the link's notices after an offer to one region. -/
def Store.offer (st : Store) (k : Link) (id : RegionId) (rec : Rec) : (Store × Link) × Bool :=
  let o := Placed.offer id { mem := st.mem, region := st.regions[id] } rec
  (({ mem := o.placed.mem, regions := st.regions.set id o.placed.region }, k.raiseAll o.notices), o.recorded)

/-- R40, R105: a record offered to a set of regions is taken by each on its own. -/
def Store.offerSet (st : Store) (k : Link) (m : QuadSet) (rec : Rec) : List RegionId → Store × Link
  | [] => (st, k)
  | id :: rest =>
    if QuadSet.has m id then
      let sk := (st.offer k id rec).1
      Store.offerSet sk.1 sk.2 m rec rest
    else st.offerSet k m rec rest

/-- An offer to one region. -/
def State.offer (s : State) (id : RegionId) (rec : Rec) : State :=
  { s with store := (s.store.offer s.link id rec).1.1, link := (s.store.offer s.link id rec).1.2 }

/-- The answer to an MSG record's producer: recorded or refused (R105). -/
def State.offerRecorded (s : State) (id : RegionId) (rec : Rec) : Bool := (s.store.offer s.link id rec).2

/-- An offer to a set of regions, in ascending order (log 12). -/
def State.offerSet (s : State) (m : QuadSet) (rec : Rec) : State :=
  { s with store := (s.store.offerSet s.link m rec quadList).1
           link := (s.store.offerSet s.link m rec quadList).2 }

/-! ### Emptying, reading, releasing, rewinding -/

/-- R100, R104: the region is emptied. -/
def Region.empty (r : Region) : Region :=
  { r with head := 0, cursor := 0, tail := 0, used := 0, unread := 0, count := 0, quota := 0, pendMsgs := 0,
           pendOther := 0, hasTrig := false, short := false, trigMissing := false, crossed := false }

/-- The records a READ delivers: their words in order and how many they are (R119). -/
structure ReadOut where
  words : List Word
  records : Nat
  region : Region

/-- R119: whole records from the cursor while they fit in `room` words, stopping at the tail. The first argument
bounds the records by those held. -/
def Region.readFrom (m : List Host.Cell) : Nat → Region → Nat → ReadOut
  | 0, r, _ => { words := [], records := 0, region := r }
  | n + 1, r, room =>
    let size := headerSize (r.headerAt m r.cursor)
    if r.unread = 0 ∨ room < size then { words := [], records := 0, region := r }
    else
      let rest := Region.readFrom m n
        { r with cursor := r.advance r.cursor size, unread := r.unread - size } (room - size)
      { rest with words := r.readWords m size r.cursor ++ rest.words, records := rest.records + 1 }

/-- R120: one record is freed from the head. -/
def Region.freeHead (m : List Host.Cell) (r : Region) : Region :=
  let h := r.headerAt m r.head
  { r with
    head := r.advance r.head (headerSize h)
    used := r.used - headerSize h
    count := r.count - 1
    hasTrig := r.hasTrig && headerKind h != RecKind.trig.code }

/-- R120: at most the given number of read records is freed, oldest first; answers the region and how many. -/
def Region.freeRead (m : List Host.Cell) : Nat → Region → Region × Nat
  | 0, r => (r, 0)
  | n + 1, r =>
    if r.count = 0 ∨ r.cursorAtHead then (r, 0)
    else
      let rest := Region.freeRead m n (r.freeHead m)
      (rest.1, rest.2 + 1)

/-- R121. -/
def Region.rewind (r : Region) : Region := { r with cursor := r.head, unread := r.used }

/-! ### The requests' owning acts -/

/-- A region named by a request: a number above 3 is refused with RANGE. -/
def withRegion (s : State) (b : Byte) (act : RegionId → Answer) : Answer :=
  match quadOfByte b with
  | none => .refuse s .range
  | some id => act id

/-- Blocks of two placements overlap (R99). -/
def blocksOverlap (base1 size1 base2 size2 : Nat) : Bool := decide (base1 < base2 + size2 ∧ base2 < base1 + size1)

/-- R99 check 5: the placement overlaps another region that is not DISABLED. -/
def placementTaken (s : State) (id : RegionId) (base size : Nat) : Bool :=
  quadList.any fun j =>
    j != id && (s.region j).state != .disabled && blocksOverlap base size (s.region j).base (s.region j).size

/-- A policy's code (R133). -/
def Policy.ofCode (b : Byte) : Option Policy :=
  if b = 0 then some .roll else if b = 1 then some .stop else none

/-- R99, R100. -/
def regionConfig (s : State) (id : RegionId) (base size : Nat) (policyCode : Byte) (threshold : Nat) : Answer :=
  let r := s.region id
  if r.state ≠ .disabled ∧ r.state ≠ .stopped then .refuse s .state
  else
    match Policy.ofCode policyCode with
    | none => .refuse s .range
    | some policy =>
      if size = 1 ∨ 256 < size ∨ Config.blockWords * size < threshold then .refuse s .range
      else if size ≠ 0 ∧ (256 < base + size ∨ placementTaken s id base size = true) then .refuse s .range
      else
        .ok (s.setRegion id
          { r.empty with base := base, size := size, policy := policy, threshold := threshold,
                         state := if size = 0 then .disabled else .stopped }) []

/-- R102. A mode code that names neither mode is answered RANGE before the state is judged: R102 states no order
(log 30, DESIGN CHOICE). -/
def regionStart (s : State) (id : RegionId) (modeCode : Byte) (quota : Nat) : Answer :=
  let r := s.region id
  if modeCode ≠ 0 ∧ modeCode ≠ 1 then .refuse s .range
  else if r.state ≠ .stopped then .refuse s .state
  else if modeCode = 0 then
    .ok (s.setRegion id { r with state := .run, quota := 0, short := false, trigMissing := false }) []
  else if r.hasTrig then .refuse s .state
  else .ok (s.setRegion id { r with state := .armed, quota := quota, short := false, trigMissing := false }) []

/-- R103. -/
def regionStop (s : State) (id : RegionId) : Answer :=
  let r := s.region id
  if r.state = .disabled then .refuse s .state else .ok (s.setRegion id { r with state := .stopped }) []

/-- R104. -/
def regionClear (s : State) (id : RegionId) : Answer :=
  let r := s.region id
  if r.state = .disabled then .refuse s .state else .ok (s.setRegion id { r.empty with state := .stopped }) []

/-- R136's codes of a region state. -/
def RegionState.code : RegionState → Byte
  | .disabled => 0
  | .stopped => 1
  | .run => 2
  | .armed => 3
  | .postfill => 4
  | .frozen => 5

/-- A policy's code. -/
def Policy.code : Policy → Byte
  | .roll => 0
  | .stop => 1

/-- R136: the REGION_STATUS content. -/
def regionStatusContent (id : RegionId) (r : Region) : List Byte :=
  [BitVec.ofNat 8 id.val, r.state.code, r.policy.code, BitVec.ofNat 8 r.base] ++ bytesOfNat 2 r.size ++
    bytesOfNat 2 r.threshold ++ bytesOfNat 2 r.used ++ bytesOfNat 2 r.unread ++ bytesOfNat 2 r.count ++
    bytesOfNat 2 r.quota ++ bytesOfNat 2 r.pendMsgs ++ bytesOfNat 2 r.pendOther ++
    [byteOfBits [r.hasTrig, r.short, r.trigMissing, r.crossed]]

/-- R119, R136: READ. A maximum out of range is answered RANGE before a DISABLED region is answered STATE: R119 states no
order (log 30, DESIGN CHOICE). -/
def regionRead (s : State) (id : RegionId) (maxBytes : Nat) : Answer :=
  let r := s.region id
  if maxBytes < 288 ∨ 1020 < maxBytes ∨ maxBytes % 4 ≠ 0 then .refuse s .range
  else if r.state = .disabled then .refuse s .state
  else
    let out := Region.readFrom s.store.mem r.count r (maxBytes / 4)
    .ok (s.setRegion id out.region)
      ([BitVec.ofNat 8 id.val, BitVec.ofNat 8 out.records, if out.region.unread = 0 then 0 else 1] ++
        out.words.flatMap wordBytes)

/-- R120: RELEASE; a count of 0 means ALL_READ. -/
def regionRelease (s : State) (id : RegionId) (count : Nat) : Answer :=
  let r := s.region id
  if r.state = .disabled then .refuse s .state
  else
    let freed := Region.freeRead s.store.mem (if count = 0 then r.count else count) r
    let judged := freed.1.judgeThreshold id
    .ok ((s.setRegion id judged.1).setLink (s.link.raiseAll judged.2)) (bytesOfNat 2 freed.2)

/-- R121: REWIND. -/
def regionRewind (s : State) (id : RegionId) : Answer :=
  let r := s.region id
  if r.state = .disabled then .refuse s .state else .ok (s.setRegion id r.rewind) []

end Sys2Proof.Machine
end

