-- ==== Sys2Proof/Machine/Assembler.lean ====
section
/-! DEFINITION. The message assembler: opening, adding, completing and discarding messages, and break records (R20 to R37). -/

namespace Sys2Proof.Machine

/-! ### The open message (R21 to R24) -/

/-- R21: a message opens with a character, before the character is added. -/
def openMessage (c : LineSettings) (ch : Character) : Message :=
  { startTime := ch.startTime, startTag := ch.startTag, ticks := ch.ticks, lastEnd := ch.ticks, received := 0,
    stored := [], lead0 := ch.data, lead1 := none, flags := openingFlags c ch, status := [] }

/-- R24: a later character whose echo indication differs from the message's OWN flag sets COLL. -/
def echoMismatch (m : Message) (ch : Character) : Bool := decide (m.received ≠ 0) && ch.echo != m.flags.own

/-- R22, R23: a character is added to the message. -/
def Message.add (c : LineSettings) (m : Message) (ch : Character) : Message :=
  let keep := decide (m.stored.length < c.maxLength)
  let entries := addEntries m.received (entryKinds c ch m.received) m.status
  { m with
    lead0 := if m.received = 0 then ch.data else m.lead0
    lead1 := if m.received = 1 then some ch.data else m.lead1
    stored := if keep then m.stored ++ [ch.data] else m.stored
    flags := { m.flags with
      par := m.flags.par || ch.parity
      frm := m.flags.frm || ch.framing
      noi := m.flags.noi || ch.noise
      trunc := m.flags.trunc || !keep
      coll := m.flags.coll || echoMismatch m ch
      statOvf := m.flags.statOvf || entries.2 }
    status := entries.1
    received := satInc Config.count16Max m.received
    lastEnd := m.ticks }

/-! ### The MSG record (R30, R128) -/

/-- R127's end cause codes. -/
def EndCause.code : EndCause → Nat
  | .gap => 0
  | .address => 1
  | .brk => 2
  | .stop => 3

/-- R128's status entry kinds. -/
def StatusKind.code : StatusKind → Nat
  | .parity => 0
  | .framing => 1
  | .noise => 2
  | .address => 3

/-- A word from up to four bytes, the first in bits 0 to 7 (R128). -/
def wordOfBytes (bs : List Byte) : Word := BitVec.ofNat 32 (natOfBytes bs)

/-- R128: the kept bytes, four to a word, unused bytes 0. -/
def dataWords : List Byte → List Word
  | a :: b :: c :: d :: t => wordOfBytes [a, b, c, d] :: dataWords t
  | [] => []
  | bs => [wordOfBytes bs]

/-- R128: one status entry in 16 bits. -/
def entryBits (e : StatusEntry) : Nat := wordField e.position 8 0 + wordField e.kind.code 2 8

/-- R128: the status entries, two to a word, the first in the low half. -/
def statusWords : List StatusEntry → List Word
  | a :: b :: t => BitVec.ofNat 32 (entryBits a + entryBits b * 2 ^ 16) :: statusWords t
  | [a] => [BitVec.ofNat 32 (entryBits a)]
  | [] => []

/-- R30: the bytes an MSG record keeps under a slice limit. -/
def keptBytes (m : Message) (slice : Nat) : List Byte := m.stored.take slice

/-- R30: SLICED. -/
def sliced (m : Message) (slice : Nat) : Bool := decide (slice < m.stored.length)

/-- R30, R128: the words after the header. -/
def msgBody (m : Message) (index : Option Nat) (slice : Nat) : List Word :=
  let kept := keptBytes m slice
  [m.startTime, taggedWord m.lastEnd m.startTag,
    BitVec.ofNat 32 (wordField m.received 16 0 + wordField kept.length 9 16 + wordField (index.getD 63) 6 25)] ++
    dataWords kept ++ statusWords m.status

/-- R30, R128: the MSG record of a completed message. -/
def msgRecord (line : LineId) (cause : EndCause) (m : Message) (index : Option Nat) (slice : Nat) : Rec :=
  let body := msgBody m index slice
  { kind := .msg
    words := headerWord .msg line.val cause.code (body.length + 1) (m.flags.headerBits (sliced m slice))
      m.status.length :: body }

/-! ### Completion (R29 to R33) -/

/-- R30, R31: on RECORD a record is built and offered to the line's region. -/
def offerMessage (s : State) (line : LineId) (cause : EndCause) (m : Message) (a : FilterAnswer) :
    State × MsgOutcome :=
  match a.decision with
  | .drop => (s, .filtered)
  | .record =>
    let region := (s.line line).cfg.region
    let built := msgRecord line cause m a.index a.slice
    (s.offer region built, if s.offerRecorded region built then .recorded else .lost)

/-- R33: a non-empty flag set is sent as a message event. -/
def sendFlags (s : State) (line : LineId) (flags : FlagSet) : State :=
  if flags = 0 then s else s.joinQueue (.message line flags)

/-- Section 2.5: a completion, taken whole: filter query, record offer, report, flag event, CLOSED. -/
def completeMessage (s : State) (line : LineId) (cause : EndCause) (m : Message) : State :=
  let p := m.props line
  let a := filterAnswer p (s.line line).cfg.defaultAction s.filters.toList
  let o := offerMessage (s.countHits p) line cause m a
  let s2 := o.1.report line (fun g => g.completion o.2 m.received m.flags.trunc)
  (sendFlags s2 line a.flags).setMsg line none

/-- The open message, if there is one, completes. -/
def completeOpen (s : State) (line : LineId) (cause : EndCause) : State :=
  match (s.line line).msg with
  | none => s
  | some m => completeMessage s line cause m

/-! ### Deliveries (R21, R22, R25, R27, R34) -/

/-- R25: the character completes the open message by ADDRESS. -/
def addressEnds (c : LineSettings) (ch : Character) : Bool :=
  decide (c.mode ≠ .gap) && decide (c.format = .f8A) && ch.addr

/-- R21, R22: the character joins the open message, or opens one. -/
def joinMessage (s : State) (line : LineId) (ch : Character) : State :=
  let c := (s.line line).cfg
  match (s.line line).msg with
  | none => s.setMsg line (some (Message.add c (openMessage c ch) ch))
  | some m => s.setMsg line (some (Message.add c m ch))

/-- A delivered character reaches the assembler (R20 to R25). -/
def assembleCharacter (s : State) (line : LineId) (ch : Character) : State :=
  if addressEnds (s.line line).cfg ch then joinMessage (completeOpen s line .address) line ch
  else joinMessage s line ch

/-- A break event reaches the assembler: it completes the open message, and its BRK record is offered (R27, R34). -/
def assembleBreak (s : State) (line : LineId) (b : BreakInfo) : State :=
  let s1 := completeOpen s line .brk
  s1.offer (s1.line line).cfg.region (brkRecord line b)

/-- R26: the open message completes by GAP when the idle measure has just risen to the threshold. -/
def gapCompletes (l : Line) (idle : Nat) : Bool :=
  l.msg.isSome && decide (l.cfg.mode ≠ .address) && idle == l.cfg.gapThreshold

/-- R24: a collision report sets COLL on the open message. -/
def collisionReport (s : State) (line : LineId) : State :=
  match (s.line line).msg with
  | none => s
  | some m => s.setMsg line (some { m with flags := { m.flags with coll := true } })

end Sys2Proof.Machine
end

