-- ==== Sys2Proof/Machine/Transmit.lean ====
section
/-! DEFINITION. The transmit units: the queue, taking the line, preamble, break, characters, echo judgement, hold, outcomes, flushing and the canned message table (R148 to R164). -/

namespace Sys2Proof.Machine

/-- The driver-enable output (section 9.3's table). -/
def TxState.driving : TxState → Bool
  | .idle | .wait => false
  | .preamble | .brk | .data | .hold => true

/-- The levels the unit drives in the successive bit times of its state: mark for the preamble (R154), space for the
break and one bit time of mark after it (R155), the slots of the character on the pin (R156), mark for the hold (R159);
none while the driver is released. -/
def TxUnit.bitLevels (c : LineSettings) (u : TxUnit) : List Level :=
  match u.state, u.queue.head? with
  | .preamble, some t => List.replicate t.preamble .mark
  | .brk, some t => List.replicate t.brk .space ++ [.mark]
  | .data, _ => (u.onPin.map (·.slots)).getD []
  | .hold, _ => List.replicate c.hold .mark
  | .preamble, none | .brk, none | .idle, _ | .wait, _ => []

/-- The sense the transmit data pin is driven through (R3, R156): that of the character on it, as the settings of an OFF
line can change while a cut character finishes (R162), and the line's otherwise. -/
def TxUnit.pinSense (c : LineSettings) (u : TxUnit) : Sense :=
  match u.state, u.onPin with
  | .data, some p => p.sense
  | .data, none | .idle, _ | .wait, _ | .preamble, _ | .brk, _ | .hold, _ => c.sense

/-- The level of the transmit data pin in bit time `n`, from 0, of the unit's state (R3, R153 to R156, R159). While the
driver is released it stands at mark (section 9.3 says so of TX_IDLE after a reset; log 28). -/
def TxUnit.pinAt (c : LineSettings) (u : TxUnit) (n : Nat) : PinLevel :=
  (u.pinSense c).drive ((u.bitLevels c)[n]?.getD .mark)

/-- The level of line `i`'s transmit data pin in bit time `n` of its unit's state. -/
def State.txPinAt (s : State) (i : LineId) (n : Nat) : PinLevel := (s.line i).tx.pinAt (s.line i).cfg n

/-! ### The queue (R149 to R152) -/

/-- R153: a transmission joins the queue; an empty queue's unit moves to TX_WAIT. -/
def TxUnit.enqueue (u : TxUnit) (t : Transmission) : TxUnit :=
  { u with queue := u.queue ++ [t], state := if u.state = .idle then .wait else u.state }

/-- The line can take a transmission: not OFF, no LINE_STOP pending, transmit permitted (R150, R152). -/
def Line.canSend (l : Line) : Bool := l.rx.state != .off && !l.rx.stopPending && l.cfg.txPermitted

/-- R150: a break length from 1 to 12 is out of range. -/
def breakLengthOk (n : Nat) : Bool := n == 0 || decide (13 ≤ n)

/-- R150: SEND, with its fields. -/
def sendRequest (s : State) (i : LineId) (preamble brk options : Byte) (data : List Byte) : Answer :=
  let l := s.line i
  if !l.canSend then .refuse s .state
  else if !breakLengthOk brk.toNat || (options.getLsbD 0 && l.cfg.format != .f8A) then .refuse s .range
  else if Config.transmitPlaces ≤ l.tx.queue.length then .refuse s .full
  else
    let u := l.tx.enqueue { source := .host, preamble := preamble.toNat, brk := brk.toNat,
                            addrFirst := options.getLsbD 0, data := data }
    .ok (s.setTx i u) [BitVec.ofNat 8 u.queue.length]

/-- A line named by a request: above 3 is refused with RANGE. -/
def withLine (s : State) (b : Byte) (act : LineId → Answer) : Answer :=
  match quadOfByte b with
  | none => .refuse s .range
  | some i => act i

/-- A canned slot number: above 7 is out of range (R151). -/
def slotOfByte (b : Byte) : Option (Fin 8) :=
  if h : b.toNat < 8 then some ⟨b.toNat, h⟩ else none

/-- R151: CANNED_WRITE, with its fields; no data byte makes the slot empty. DESIGN CHOICE (log 29): bits 1 to 7 of the
options byte are disregarded, as R150 says of SEND; R151 is silent. -/
def cannedWrite (s : State) (slotByte lineByte preamble brk options : Byte) (data : List Byte) : Answer :=
  match slotOfByte slotByte, quadOfByte lineByte with
  | some c, some i =>
    if !breakLengthOk brk.toNat || (options.getLsbD 0 && (s.line i).cfg.format != .f8A) then .refuse s .range
    else
      let entry : Option CannedMessage :=
        if data.isEmpty then none
        else some { line := i, preamble := preamble.toNat, brk := brk.toNat, addrFirst := options.getLsbD 0,
                    data := data }
      .ok { s with canned := s.canned.set c entry } []
  | _, _ => .refuse s .range

/-- R152: a SEND action drops, with its count, or queues the slot's message on its line. -/
def State.sendCanned (s : State) (c : Fin 8) : State :=
  match s.canned[c] with
  | none => s.report 0 LineStats.sendDropped
  | some cm =>
    let l := s.line cm.line
    if l.canSend && decide (l.tx.queue.length < Config.transmitPlaces) then
      s.setTx cm.line (l.tx.enqueue { source := .canned c, preamble := cm.preamble, brk := cm.brk,
                                      addrFirst := cm.addrFirst, data := cm.data })
    else s.report cm.line LineStats.sendDropped

/-! ### Outcomes (R160) -/

/-- The unit once the oldest transmission has left the queue. -/
def TxUnit.dropOldest (u : TxUnit) : TxUnit :=
  { u with queue := u.queue.tail, state := if u.queue.tail.isEmpty then .idle else .wait, onPin := none, sent := 0,
           awaited := [], collided := false, cut := .none }

/-- R132's codes of an outcome. -/
def TxOutcome.code : TxOutcome → Byte
  | .ok => 0
  | .collision => 1
  | .aborted => 2

/-- R160: the transmission ends with an outcome. -/
def State.endTx (s : State) (i : LineId) (o : TxOutcome) : State :=
  let u := (s.line i).tx.dropOldest
  let s1 := (s.setTx i { u with lastOutcome := some o }).report i (fun g => g.txOutcome o)
  if u.queue.isEmpty then s1.raise { kind := .txEmpty i, payload := [BitVec.ofNat 8 i.val, o.code] } else s1

/-! ### Sending (R153 to R156) -/

/-- R156: the address flag option applies to the first byte alone. -/
def addrFor (t : Transmission) (index : Nat) : Bool := t.addrFirst && index == 0

/-- R156, R157: the start bit of the next data byte begins on the transmit pin, and its echo is awaited. With no
byte left the unit is in TX_HOLD. -/
def TxUnit.beginNext (c : LineSettings) (u : TxUnit) : TxUnit :=
  match u.queue.head? with
  | none => u
  | some t =>
    match t.data[u.sent]? with
    | none => { u with state := .hold, onPin := none }
    | some b =>
      let ninth := ninthBit c.format b (addrFor t u.sent)
      { u with
        state := .data, sent := u.sent + 1
        onPin := some { data := b, slots := sentSlots c b ninth, divisor := c.divisor, sense := c.sense }
        awaited := if u.collided then u.awaited
                   else u.awaited ++ [{ data := b, ninth := ninth, deadline := charTime c }] }

/-- R153, R154: the state after the preamble, or after taking the line with none. -/
def TxUnit.afterPreamble (c : LineSettings) (u : TxUnit) : TxUnit :=
  match u.queue.head? with
  | none => u
  | some t => if t.brk ≠ 0 then { u with state := .brk } else u.beginNext c

/-- R153: the transmission takes the line. -/
def TxUnit.take (c : LineSettings) (u : TxUnit) : TxUnit :=
  match u.queue.head? with
  | none => u
  | some t => if t.preamble ≠ 0 then { u with state := .preamble } else u.afterPreamble c

/-- R14: the receiver offers line access. -/
def Receiver.offersAccess (r : Receiver) : Bool := r.state == .hunt && !r.startPending && !r.awaitingMark

/-- R153: all conditions for taking the line hold. -/
def Line.mayTake (l : Line) : Bool :=
  l.tx.state == .wait && l.rx.offersAccess && decide (l.cfg.accessGap ≤ l.rx.idle) &&
    (l.cfg.mode == .address || l.msg.isNone)

/-! ### Echo and collision (R157 to R159) -/

/-- The unit judges echoes: in TX_DATA or TX_HOLD, no collision found, not cut (R157, R161). -/
def TxUnit.judging (u : TxUnit) : Bool :=
  (u.state == .data || u.state == .hold) && !u.collided && u.cut == .none

/-- R157: the echo is good. -/
def goodEcho (f : Format) (e : AwaitedEcho) (ch : Character) : Bool :=
  ch.data == e.data && !ch.parity && !ch.framing && (f != .f8A || some (levelOfBit ch.addr) == e.ninth)

/-- What the unit finds of a delivered character (R157). -/
inductive EchoVerdict where
  | notJudged
  | good
  | collision
  deriving DecidableEq, Repr

/-- R157: a delivered character is judged against the oldest awaited echo. -/
def TxUnit.judge (f : Format) (u : TxUnit) (ch : Character) : EchoVerdict :=
  if u.judging then
    match u.awaited with
    | [] => .collision
    | e :: _ => if goodEcho f e ch then .good else .collision
  else .notJudged

/-- The collision outcome has been reached in TX_HOLD: the driver is released at once (R158). -/
def releaseIfHolding (s : State) (i : LineId) : State :=
  if (s.line i).tx.state = .hold then s.endTx i .collision else s

/-- R157, R158: a collision is found: judging ends, the assembler is told, and in TX_HOLD the transmission ends. -/
def foundCollision (s : State) (i : LineId) : State :=
  let s1 := s.setTx i { (s.line i).tx with collided := true, awaited := [] }
  releaseIfHolding (collisionReport s1 i) i

/-- R159: the hold ends and the outcome is judged on the list of awaited echoes. -/
def judgeHold (s : State) (i : LineId) : State :=
  if (s.line i).tx.awaited.isEmpty then s.endTx i .ok else foundCollision s i

/-- A delivery to the assembler that makes the unit find a collision: the report reaches the assembler before the
delivery or after it (R24, log 8). -/
def raceCollision (s : State) (i : LineId) (deliver : State → State) : State :=
  if Config.reportBeforeDelivery s.free then deliver (foundCollision s.useFree i)
  else foundCollision (deliver s.useFree) i

/-- A character delivered by the receiver reaches the assembler and the unit (R10, R157). -/
def deliverCharacter (s : State) (i : LineId) (ch : Character) : State :=
  let u := (s.line i).tx
  match u.judge (s.line i).cfg.format ch with
  | .notJudged => assembleCharacter s i ch
  | .good => assembleCharacter (s.setTx i { u with awaited := u.awaited.tail }) i ch
  | .collision => raceCollision s i (fun t => assembleCharacter t i ch)

/-- A break event delivered by the receiver reaches the assembler and the unit (R12, R157). -/
def deliverBreak (s : State) (i : LineId) (b : BreakInfo) : State :=
  if (s.line i).tx.judging then raceCollision s i (fun t => assembleBreak t i b) else assembleBreak s i b

/-! ### The unit's own steps -/

/-- R153: TAKE_LINE. -/
def takeLine (s : State) (i : LineId) : State :=
  let l := s.line i
  if l.mayTake then s.setTx i (l.tx.take l.cfg) else s

/-- R154: the preamble is complete. -/
def preambleEnd (s : State) (i : LineId) : State :=
  let l := s.line i
  if l.tx.state = .preamble then s.setTx i (l.tx.afterPreamble l.cfg) else s

/-- R155: the break and its bit time of mark are complete. -/
def txBreakEnd (s : State) (i : LineId) : State :=
  let l := s.line i
  if l.tx.state = .brk then s.setTx i (l.tx.beginNext l.cfg) else s

/-- R157: two echoes were awaited as the character on the pin ended, so the older one's deadline passes at this
moment (log 20). -/
def TxUnit.deadlineNow (u : TxUnit) : Bool := u.judging && decide (2 ≤ u.awaited.length)

/-- R156 to R158, R161 to R163: the last stop bit of the character on the pin ends. -/
def txCharacterEnd (s : State) (i : LineId) : State :=
  let l := s.line i
  if l.tx.state = .data then
    match l.tx.cut with
    | .reset => s.setTx i l.tx.dropOldest
    | .flushed => s.endTx i (if l.tx.collided then .collision else .aborted)
    | .none =>
      if l.tx.collided then s.endTx i .collision
      else
        let s1 := s.setTx i (l.tx.beginNext l.cfg)
        if l.tx.deadlineNow then foundCollision s1 i else s1
  else s

/-- R157: the deadline of the oldest awaited echo can pass: its character has ended on the pin (log 20). -/
def TxUnit.deadlineDue (u : TxUnit) : Bool :=
  u.judging &&
    (match u.state with
      | .data => decide (2 ≤ u.awaited.length)
      | .hold => !u.awaited.isEmpty
      | .idle | .wait | .preamble | .brk => false)

/-- R157: the oldest awaited echo's deadline passes. -/
def echoDeadline (s : State) (i : LineId) : State :=
  if (s.line i).tx.deadlineDue then foundCollision s i else s

/-- R159: the turnaround hold is complete. -/
def holdEnd (s : State) (i : LineId) : State :=
  if (s.line i).tx.state = .hold then judgeHold s i else s

/-- A fall seen by the receiver: a preamble defers (R154), a hold ends (R159). -/
def fallSeen (s : State) (i : LineId) : State :=
  let u := (s.line i).tx
  match u.state with
  | .preamble => (s.setTx i { u with state := .wait }).report i LineStats.deferral
  | .hold => judgeHold s i
  | .idle | .wait | .brk | .data => s

/-! ### Flushing (R161 to R163) -/

/-- R161, R162: TX_FLUSH's effect on a unit. -/
def flushTx (s : State) (i : LineId) : State :=
  let u := (s.line i).tx
  match u.state with
  | .idle | .wait => s.setTx i { u with queue := [], state := .idle, awaited := [] }
  | .preamble | .brk => (s.setTx i { u with queue := u.queue.take 1 }).endTx i .aborted
  | .data =>
    s.setTx i { u with
      queue := u.queue.take 1, awaited := []
      cut := match u.cut with
        | .reset => .reset
        | .none | .flushed => .flushed }
  | .hold => judgeHold (s.setTx i { u with queue := u.queue.take 1 }) i

/-- R163: LINE_RESET's effect on a unit: no outcome, no count, no notice. -/
def resetTx (s : State) (i : LineId) : State :=
  let u := (s.line i).tx
  match u.state with
  | .data => s.setTx i { u with queue := u.queue.take 1, awaited := [], cut := .reset }
  | .idle | .wait | .preamble | .brk | .hold =>
    s.setTx i ({ u with queue := u.queue.take 1 }).dropOldest

/-- R136's codes of a transmit state (R133). -/
def TxState.code : TxState → Byte
  | .idle => 0
  | .wait => 1
  | .preamble => 2
  | .brk => 3
  | .data => 4
  | .hold => 5

/-- R133, R164: the TX_STATUS content. -/
def txStatusContent (i : LineId) (u : TxUnit) : List Byte :=
  [BitVec.ofNat 8 i.val, u.state.code, BitVec.ofNat 8 u.queue.length,
    match u.lastOutcome with | none => 3 | some o => o.code]

end Sys2Proof.Machine
end

