-- ==== Sys2Proof/Machine/Receiver.lean ====
section
/-! DEFINITION. The line receivers: sampling, start bits, slots, characters, breaks, the idle measure (R1 to R14), and stopping and resetting a line (R15 to R18, R35, R36). -/

namespace Sys2Proof.Machine

/-- What a receiver reads of the rest of the part when it validates a start bit (R11). -/
structure RxContext where
  counter : Word
  tag : Byte
  /-- the back-date B in ticks -/
  backDate : Nat
  /-- driver enable is asserted -/
  driving : Bool
  deriving DecidableEq, Repr

/-- What one sample brings about beside moving counts. -/
inductive RxOut where
  | nothing
  /-- R5: SETTLE ends -/
  | settled
  /-- R6: a fall marks a start bit pending -/
  | fall
  /-- R6: the start bit is validated -/
  | validated
  /-- R6: a false start -/
  | falseStart
  /-- R10: a character is complete -/
  | character (ch : Character)
  /-- R9: a break is recognised -/
  | breakFound
  /-- R12: a break has ended -/
  | breakEnded (b : BreakInfo)
  /-- R13: the idle measure has risen to this value -/
  | idleRose (measure : Nat)
  deriving DecidableEq, Repr

/-- R11: the back-date B = floor(8 x (D + 1) / (TICKDIV + 1)) ticks. -/
def backDate (divisor tickDiv : Nat) : Nat := 8 * (divisor + 1) / (tickDiv + 1)

/-- R11: the start time; 0 when the counter passed 0 less than B ticks ago. -/
def startTimeOf (counter : Word) (b : Nat) : Word :=
  if counter.toNat < b then 0 else counter - BitVec.ofNat 32 b

/-- R5, R13: a sample in SETTLE. -/
def Receiver.sampleSettle (r : Receiver) (l : Level) : Receiver × RxOut :=
  match l with
  | .space => ({ r with level := l, markRun := 0, idle := 0 }, .nothing)
  | .mark =>
    if r.markRun + 1 < 192 then
      ({ r with level := l, markRun := r.markRun + 1, idle := (r.markRun + 1) / 16 }, .nothing)
    else
      ({ r with state := .hunt, level := l, markRun := 0, idle := 12, idleSamples := 0, startPending := false,
                awaitingMark := false }, .settled)

/-- R13: a mark sample counted in HUNT. -/
def Receiver.countMark (r : Receiver) : Receiver × RxOut :=
  if r.idleSamples + 1 < 16 then ({ r with idleSamples := r.idleSamples + 1 }, .nothing)
  else if r.idle < Config.idleMax then
    ({ r with idleSamples := 0, idle := r.idle + 1 }, .idleRose (r.idle + 1))
  else ({ r with idleSamples := 0 }, .nothing)

/-- R6, R11: sample 9 of the start bit validates it. -/
def Receiver.validate (x : RxContext) (noisy : Bool) (r : Receiver) : Receiver :=
  { r with state := .char, startPending := false, idle := 0, idleSamples := 0, slots := [], noise := noisy,
           startTime := startTimeOf x.counter x.backDate, startTag := x.tag, echo := x.driving,
           tickCount := x.backDate }

/-- R6: a sample of a pending start bit; sample 9 decides it. -/
def Receiver.samplePending (x : RxContext) (r : Receiver) (l : Level) : Receiver × RxOut :=
  let n := r.frameSamples + 1
  let r1 := { r with level := l, frameSamples := n, vote7 := if n = 7 then l else r.vote7,
                     vote8 := if n = 8 then l else r.vote8 }
  if n < 9 then (r1, .nothing)
  else
    let v : Votes := { s7 := r.vote7, s8 := r.vote8, s9 := l }
    match majority v with
    | .space => (r1.validate x (!unanimous v), .validated)
    | .mark => ({ r1 with startPending := false, frameSamples := 0 }, .falseStart)

/-- R6, R13: a sample in HUNT. The first mark sample after awaiting mark is counted (log 17). -/
def Receiver.sampleHunt (x : RxContext) (r : Receiver) (l : Level) : Receiver × RxOut :=
  if r.startPending then r.samplePending x l
  else
    match l with
    | .mark => ({ r with level := l, awaitingMark := false }).countMark
    | .space =>
      if r.awaitingMark = false ∧ r.level = .mark then
        ({ r with level := l, startPending := true, frameSamples := 1 }, .fall)
      else ({ r with level := l }, .nothing)

/-- R7 to R10: the character of the decided slots. -/
def Receiver.builtCharacter (c : LineSettings) (r : Receiver) : Character :=
  { data := dataOfSlots c.bitOrder r.slots, addr := addressFlag c.format r.slots,
    parity := parityFails c.format r.slots, framing := framingFails r.slots, noise := r.noise,
    startTime := r.startTime, startTag := r.startTag, echo := r.echo, ticks := r.tickCount }

/-- R12: the break event, with CUT or without. -/
def Receiver.breakInfo (r : Receiver) (cut : Bool) : BreakInfo :=
  { startTime := r.startTime, startTag := r.startTag, duration := r.tickCount, echo := r.echo, cut := cut }

/-- R13: the receiver enters HUNT from CHAR or BREAK_HOLD; at space it awaits mark (R10). -/
def Receiver.enterHunt (l : Level) (r : Receiver) : Receiver :=
  { r with state := .hunt, level := l, idle := 0, idleSamples := 0, markRun := 0, frameSamples := 0,
           startPending := false, awaitingMark := decide (l = .space) }

/-- R4: the slot and the place in it (1 to 16) of the n-th sample since the fall. -/
def slotOf (n : Nat) : Nat := (n - 1) / 16
def placeOf (n : Nat) : Nat := (n - 1) % 16 + 1

/-- R7: sample 9 decides a slot. -/
def Receiver.decideSlot (r : Receiver) (l : Level) : Receiver :=
  let v : Votes := { s7 := r.vote7, s8 := r.vote8, s9 := l }
  { r with slots := r.slots ++ [majority v], noise := r.noise || !unanimous v }

/-- R4, R7 to R10: a sample in CHAR. -/
def Receiver.sampleChar (c : LineSettings) (r : Receiver) (l : Level) : Receiver × RxOut :=
  let n := r.frameSamples + 1
  let r1 := { r with level := l, frameSamples := n, vote7 := if placeOf n = 7 then l else r.vote7,
                     vote8 := if placeOf n = 8 then l else r.vote8 }
  if placeOf n = 9 ∧ 1 ≤ slotOf n ∧ slotOf n ≤ firstStopSlot c then
    let r2 := r1.decideSlot l
    if slotOf n = firstStopSlot c ∧ allSpace r2.slots = true then
      ({ r2 with state := .breakHold, markRun := 0, frameSamples := 0 }, .breakFound)
    else (r2, .nothing)
  else if placeOf n = 16 ∧ lastStopSlot c ≤ slotOf n then (r1.enterHunt l, .character (r1.builtCharacter c))
  else (r1, .nothing)

/-- R12: a sample in BREAK_HOLD. -/
def Receiver.sampleBreak (r : Receiver) (l : Level) : Receiver × RxOut :=
  match l with
  | .space => ({ r with level := l, markRun := 0 }, .nothing)
  | .mark =>
    if r.markRun + 1 < 8 then ({ r with level := l, markRun := r.markRun + 1 }, .nothing)
    else (r.enterHunt l, .breakEnded (r.breakInfo false))

/-- One sample of a line, its sense applied (R3); none is taken in OFF. -/
def Receiver.sample (c : LineSettings) (x : RxContext) (r : Receiver) (l : Level) : Receiver × RxOut :=
  match r.state with
  | .off => (r, .nothing)
  | .settle => r.sampleSettle l
  | .hunt => r.sampleHunt x l
  | .char => r.sampleChar c l
  | .breakHold => r.sampleBreak l

/-! ### The receiver in the part -/

/-- What line `i`'s receiver reads at this moment (R11). -/
def State.rxContext (s : State) (i : LineId) : RxContext :=
  { counter := s.tb.counter, tag := s.epochTag,
    backDate := backDate (s.line i).cfg.divisor s.tb.tickDiv.toNat,
    driving := (s.line i).tx.state.driving }

/-- R15, R35: the receiver enters OFF after LINE_STOP, and the open message completes with STOP. -/
def enterOff (s : State) (i : LineId) : State := completeOpen (s.setRx i Receiver.off) i .stop

/-- R15: with a stop pending, the receiver enters OFF once its character or break has been handed on. -/
def afterHandover (s : State) (i : LineId) (stopping : Bool) : State := if stopping then enterOff s i else s

/-- R10, R138: a character is handed to the assembler and reported. -/
def handCharacter (s : State) (i : LineId) (ch : Character) : State :=
  (deliverCharacter s i ch).report i (fun g => g.character ch)

/-- R12, R138: a break event is handed to the assembler and reported. -/
def handBreak (s : State) (i : LineId) (b : BreakInfo) : State :=
  (deliverBreak s i b).report i LineStats.breakSeen

/-- What the part does with the outcome of a sample; `stopping` says that a stop was pending (R15), `r` is the
receiver after the sample. -/
def afterSample (s : State) (i : LineId) (stopping : Bool) (r : Receiver) : RxOut → State
  | .nothing | .settled | .validated => s
  | .fall => fallSeen s i
  | .falseStart => s.report i LineStats.falseStart
  | .character ch => afterHandover (handCharacter s i ch) i stopping
  | .breakFound => if stopping then enterOff (handBreak s i (r.breakInfo true)) i else s
  | .breakEnded b => handBreak s i b
  | .idleRose n => if gapCompletes (s.line i) n then completeOpen s i .gap else s

/-- The receiver and its output after one sample at a level. -/
def sampled (s : State) (i : LineId) (l : Level) : Receiver × RxOut :=
  (s.line i).rx.sample (s.line i).cfg (s.rxContext i) l

/-- One sample of line `i` at a level after the sense (R3). -/
def takeSample (s : State) (i : LineId) (l : Level) : State :=
  let o := sampled s i l
  afterSample (s.setRx i o.1) i (s.line i).rx.stopPending o.1 o.2

/-- The level a raw pin level shows on line `i` (R3). -/
def lineLevel (s : State) (i : LineId) (pin : PinLevel) : Level := (s.line i).cfg.sense.apply pin

/-- A sample taken only when its outcome is the one that the command names (log 1, 3). -/
def sampleIf (s : State) (i : LineId) (l : Level) (named : RxOut → Bool) : State :=
  if named (sampled s i l).2 then takeSample s i l else s

/-! ### Requests (R2, R5, R15 to R17) -/

/-- R2: LINE_CONFIG; the settings are read from the bytes after the line number. -/
def lineConfig (s : State) (i : LineId) (bytes : List Byte) : Answer :=
  if (s.line i).rx.state ≠ .off then .refuse s .state
  else
    match parseLineSettings bytes with
    | none => .refuse s .range
    | some c => .ok (s.setCfg i c) []

/-- R5: LINE_START. DESIGN CHOICE (log 27): until the first sample the line level shows mark, as in OFF; R17 gives it
from the most recent sample, of which there is none yet. -/
def lineStart (s : State) (i : LineId) : Answer :=
  if (s.line i).rx.state = .off then .ok (s.setRx i { Receiver.off with state := .settle }) []
  else .refuse s .state

/-- R15: what the receiver does when LINE_STOP is accepted. -/
def stopReceiver (s : State) (i : LineId) : State :=
  let r := (s.line i).rx
  match r.state with
  | .off => s
  | .settle | .hunt => enterOff s i
  | .char => s.setRx i { r with stopPending := true }
  | .breakHold => enterOff (handBreak s i (r.breakInfo true)) i

/-- The order of the two parts of LINE_STOP, the transmit unit's (R162) and the receiver's (R15), shows: in
TX_PREAMBLE, TX_BREAK and TX_HOLD the unit's part ends a transmission and raises TXEMPTY, as the receiver's part may
raise notices of its own, and a hold may report a collision to the assembler; a judging unit meets a cut break. -/
def stopRaces (l : Line) : Bool :=
  match l.tx.state with
  | .preamble | .brk | .hold => true
  | .idle | .wait | .data => l.tx.judging && l.rx.state == .breakHold

/-- R15, R35, R162: LINE_STOP's effect; where the order of its two parts matters, either is taken first (log 11). -/
def stopLine (s : State) (i : LineId) : State :=
  if stopRaces (s.line i) then
    if Config.flushBeforeStop s.free then stopReceiver (flushTx s.useFree i) i
    else flushTx (stopReceiver s.useFree i) i
  else stopReceiver (flushTx s i) i

/-- R15: LINE_STOP; a second one while a stop is pending has no further effect. -/
def lineStop (s : State) (i : LineId) : Answer :=
  let r := (s.line i).rx
  if r.state = .off then .refuse s .state
  else if r.stopPending then .ok s []
  else .ok (stopLine s i) []

/-- R16, R36, R163: LINE_RESET. -/
def lineReset (s : State) (i : LineId) : Answer :=
  .ok (resetTx ((s.setRx i Receiver.off).setMsg i none) i) []

/-- R136's codes of a receiver state. -/
def RxState.code : RxState → Byte
  | .off => 0
  | .settle => 1
  | .hunt => 2
  | .char => 3
  | .breakHold => 4

/-- R17: the mark run in whole bit times, 0 outside SETTLE. -/
def Receiver.shownRun (r : Receiver) : Nat :=
  match r.state with
  | .settle => r.markRun / 16
  | .off | .hunt | .char | .breakHold => 0

/-- R17, R136: the LINE_STATUS content. -/
def lineStatusContent (i : LineId) (r : Receiver) : List Byte :=
  [BitVec.ofNat 8 i.val, r.state.code,
    byteOfBits [r.stopPending, r.startPending, r.awaitingMark, decide (r.level = .space)],
    BitVec.ofNat 8 r.idle, BitVec.ofNat 8 r.shownRun]

end Sys2Proof.Machine
end

