-- ==== Sys2Proof/Machine/Link.lean ====
section
/-! DEFINITION. The host link: the byte receiver's decisions, the frame check, frame reception, busy replies, the transmitter, notices, identity, RESET and the resets (R130 to R132, R165 to R176). -/

namespace Sys2Proof.Machine

/-! ### Bytes on the link (R165) -/

/-- R165: the levels of a byte on the link in successive bit times, as either side sends it. -/
def linkLevels (b : Byte) : List Level := [Level.space] ++ levelsOfByte b ++ [Level.mark]

/-- R165: the sixteen samples of an undisturbed bit; mark is high on both link pins. -/
def bitSamples (l : Level) : List PinLevel := List.replicate 16 (Sense.normal.drive l)

/-- R165: the samples of bytes sent back to back without disturbance. -/
def linkSamples (bs : List Byte) : List PinLevel := (bs.flatMap linkLevels).flatMap bitSamples

/-- R165: a sample between bytes. A fall from mark to space begins a start bit, and after a stop bit at space it is not
seen before a mark sample has come. -/
def ByteReceiver.sampleIdle (r : ByteReceiver) (l : Level) : ByteReceiver :=
  match l with
  | .mark => { r with level := l, awaitingMark := false }
  | .space =>
    if r.awaitingMark = false ∧ r.level = .mark then
      { r with level := l, current := some { place := 1, vote7 := .mark, vote8 := .mark, slots := [] } }
    else { r with level := l }

/-- R165: a sample of the byte in reception. Sample 9 of a slot decides it by majority and drops a start bit decided
mark; sample 16 of the stop bit delivers the byte, whatever the stop bit. -/
def ByteReceiver.sampleByte (r : ByteReceiver) (c : ByteInReception) (l : Level) : ByteReceiver × Option Byte :=
  let n := c.place + 1
  let c1 := { c with place := n, vote7 := if n = 7 then l else c.vote7, vote8 := if n = 8 then l else c.vote8 }
  if n = 9 then
    let v := majority { s7 := c.vote7, s8 := c.vote8, s9 := l }
    if c.slots = [] ∧ v = .mark then ({ r with level := l, current := none }, none)
    else ({ r with level := l, current := some { c1 with slots := c.slots ++ [v] } }, none)
  else if n < 16 then ({ r with level := l, current := some c1 }, none)
  else if c.slots.length < 10 then ({ r with level := l, current := some { c1 with place := 0 } }, none)
  else
    ({ level := l, awaitingMark := c.slots[9]? == some .space, current := none },
      some (byteOfLevels ((c.slots.drop 1).take 8)))

/-- R165: one sample of the byte receiver, and the byte it delivers. -/
def ByteReceiver.sample (r : ByteReceiver) (l : Level) : ByteReceiver × Option Byte :=
  match r.current with
  | none => (r.sampleIdle l, none)
  | some c => r.sampleByte c l

/-! ### The frame and its check (R130) -/

/-- R130: the register shifted left once. -/
def crcShift (r : BitVec 16) : BitVec 16 := if r.msb then (r <<< 1) ^^^ 0x1021 else r <<< 1

/-- R130: the register shifted left `n` times. -/
def crcShifts : Nat → BitVec 16 → BitVec 16
  | 0, r => r
  | n + 1, r => crcShifts n (crcShift r)

/-- R130: one byte combined with the register's upper eight bits, then eight shifts. -/
def crcByte (r : BitVec 16) (b : Byte) : BitVec 16 := crcShifts 8 (r ^^^ (b.zeroExtend 16 <<< 8))

/-- R130: the check of the bytes from the length field to the payload. -/
def frameCheck (bs : List Byte) : BitVec 16 := bs.foldl crcByte 0xFFFF

/-- R130: the frame of a tag, a code and a payload. -/
def frameBytes (tag code : Byte) (payload : List Byte) : List Byte :=
  let covered := bytesOfNat 2 (payload.length + 2) ++ [tag, code] ++ payload
  0xC3 :: covered ++ bytesOfNat 2 (frameCheck covered).toNat

/-- R132's notice codes. -/
def NoticeKind.code (k : NoticeKind) : Byte := BitVec.ofNat 8 (0xF8 + k.bit)

/-- The bytes of the frame on the wire (R130 to R132). -/
def Outgoing.bytes : Outgoing → List Byte
  | .reply r => frameBytes r.tag r.code r.payload
  | .notice n => frameBytes 0 n.kind.code n.payload

/-! ### Frame reception (R166 to R169) -/

/-- R169: a good frame finding both places taken is answered BUSY; otherwise it joins the buffer as the newest. -/
def State.handFrame (s : State) (req : Request) : State :=
  let s1 := s.reportLink (fun g => { g with framesOk := inc32 g.framesOk })
  if s1.link.buffer.length < Config.requestPlaces then
    s1.setLink { s1.link with buffer := s1.link.buffer ++ [{ request := req, inHandling := false }] }
  else
    (s1.reportLink (fun g => { g with busyRefusals := inc32 g.busyRefusals })).setLink
      (s1.link.addReply { tag := req.tag, code := replyCode req.tag req.code, payload := [Status.busy.code],
                          origin := .busy })

/-- R167: a check that does not match. -/
def State.badCheck (s : State) : State :=
  let s1 := s.reportLink (fun g => { g with checkErrors := inc32 g.checkErrors })
  s1.raise { kind := .linkFault, payload := bytesOfNat 4 s1.stats.link.checkErrors }

/-- The frame receiver's new state. -/
def State.setFrameRx (s : State) (r : FrameRx) : State := s.setLink { s.link with rx := r }

/-- R166, R167: a frame in BODY is whole: its check is compared. `got` holds tag, code, payload and check. -/
def State.judgeFrame (s : State) (low high : Byte) (got : List Byte) : State :=
  let s1 := s.setFrameRx .hunt
  let len := natOfBytes [low, high]
  let covered := got.take len
  if natOfBytes (got.drop len) = (frameCheck ([low, high] ++ covered)).toNat then
    match covered with
    | tag :: code :: payload => s1.handFrame { tag := tag, code := code, payload := payload }
    | _ => s1
  else s1.badCheck

/-- R166: a length outside 2 to 1026. -/
def badLength (low high : Byte) : Bool := natOfBytes [low, high] < 2 || 1026 < natOfBytes [low, high]

/-- R166: one byte is taken by the frame receiver. -/
def State.takeByte (s : State) (b : Byte) : State :=
  match s.link.rx with
  | .hunt => if b = 0xC3 ∧ s.link.syncHeld = false then s.setFrameRx .header else s
  | .header => s.setFrameRx (.headerLow b)
  | .headerLow low =>
    if badLength low b then
      (s.reportLink (fun g => { g with lengthErrors := inc32 g.lengthErrors })).setFrameRx .hunt
    else s.setFrameRx (.body low b [])
  | .body low high got =>
    if (got ++ [b]).length < natOfBytes [low, high] + 2 then s.setFrameRx (.body low high (got ++ [b]))
    else s.judgeFrame low high (got ++ [b])

/-- R165: one sample of the link receive pin; a byte that it completes goes to the frame receiver. -/
def State.takeLinkSample (s : State) (p : PinLevel) : State :=
  let (r, byte) := s.link.bytes.sample (Sense.normal.apply p)
  let s1 := s.setLink { s.link with bytes := r }
  match byte with
  | none => s1
  | some b => s1.takeByte b

/-- Samples of the link receive pin, oldest first. -/
def State.takeLinkSamples (s : State) : List PinLevel → State
  | [] => s
  | p :: t => (s.takeLinkSample p).takeLinkSamples t

/-- R168: a gap of 20 ms inside a frame. FRAME_HUNT has no timeout. -/
def State.frameTimeout (s : State) : State :=
  match s.link.rx with
  | .hunt => s
  | .header | .headerLow _ | .body _ _ _ =>
    (s.reportLink (fun g => { g with timeouts := inc32 g.timeouts })).setFrameRx .hunt

/-- R166: the last of the samples delivers a byte that completes a length field outside 2 to 1026. -/
def endsInBadLength (s : State) (samples : List PinLevel) : Bool :=
  let k := (s.takeLinkSamples samples.dropLast).link
  match k.rx, samples.getLast?.bind (fun p => (k.bytes.sample (Sense.normal.apply p)).2) with
  | .headerLow low, some b => badLength low b
  | _, _ => false

/-! ### Resets (R175, R176 and every chapter's values after reset) -/

/-- R176: power-on; the memory's contents are unspecified (R97, log 14). -/
def State.powerOn (s : State) (baud1 baud0 : PinLevel) : State :=
  State.afterReset .power baud1 baud0 [] s.free s.pending

/-- R176: a pin reset; capture memory keeps its contents (R97). -/
def State.pinReset (s : State) (baud1 baud0 : PinLevel) : State :=
  State.afterReset .pin baud1 baud0 s.store.mem s.free s.pending

/-- R175: the soft reset; the link rate and capture memory are kept. -/
def State.softReset (s : State) : State :=
  State.afterReset .request s.link.baud1 s.link.baud0 s.store.mem s.free s.pending

/-! ### The transmitter (R169, R171) -/

/-- The RESET reply is on the wire (R175). -/
def Link.sendingReset (k : Link) : Bool :=
  match k.wire with
  | some (.reply r) => r.origin == .resetReply
  | some (.notice _) | none => false

/-- R165: the levels the transmitter sends in the successive bit times of the frame on the wire: its bytes back to
back. -/
def Link.bitLevels (k : Link) : List Level :=
  match k.wire with
  | some o => o.bytes.flatMap linkLevels
  | none => []

/-- R165: the level of the link transmit pin in bit time `n`, from 0, of the frame on the wire: mark is high, and with
no frame on the wire, as between frames and after a reset, the pin stands at mark. -/
def Link.pinAt (k : Link) (n : Nat) : PinLevel := Sense.normal.drive (k.bitLevels[n]?.getD .mark)

/-- R169, R171: the frame on the wire is finished: a handler's reply frees its request's place, and the transmitter
chooses the next frame. -/
def Link.finishFrame (k : Link) : Link :=
  let buffer :=
    match k.wire with
    | some (.reply r) => if r.origin = .handler then k.buffer.tail else k.buffer
    | some (.notice _) | none => k.buffer
  ({ k with buffer := buffer, wire := none }).choose

/-- R171, R175: the last byte of the frame on the wire has been sent; after the RESET reply the part performs the
soft reset. With nothing on the wire a free transmitter chooses (log 16). -/
def State.frameSent (s : State) : State :=
  if s.link.sendingReset then s.softReset else s.setLink s.link.finishFrame

/-! ### Requests (R173 to R175) -/

/-- R173: a pending notice stays when its kind is enabled. -/
def keptByMask (mask : Byte) (n : Notice) : Bool := mask.getLsbD n.kind.bit

/-- R173: NOTICE_MASK. -/
def noticeMask (s : State) (mask : Byte) : Answer :=
  if mask.getLsbD 7 then .refuse s .range
  else .ok (s.setLink { s.link with mask := mask, notices := s.link.notices.filter (keptByMask mask) }) [mask]

/-- R136, R174: the IDENT content. -/
def identContent (s : State) : List Byte :=
  [0x1A, 34, 0x42, 4, 4] ++ bytesOfNat 2 Config.captureWords ++ [32, 16, 8, 4, 8, s.link.cause.code]

/-- R175: RESET is taken: sync is held off and a frame in reception is cut off. -/
def resetRequest (s : State) : Answer := .ok (s.setLink { s.link with rx := .hunt, resetTaken := true }) []

/-- Payload lengths a code admits (R133). -/
def exactly (n : Nat) : Nat → Bool := fun l => l == n
def between (lo hi : Nat) : Nat → Bool := fun l => decide (lo ≤ l ∧ l ≤ hi)

/-- R73, R133: a whole number of step records from 1 to 16. -/
def tableLength (l : Nat) : Bool := decide (12 ≤ l ∧ l ≤ 192) && l % 12 == 0

/-- R131: a good frame with an unknown code: TAG for tag 0, else UNKNOWN. -/
def serveUnknown (s : State) (req : Request) : State :=
  match takeRequest s req with
  | none => s
  | some s1 =>
    placeReply s1 s1
      { tag := req.tag, code := replyCode req.tag req.code,
        payload := [if req.tag = 0 then Status.tag.code else Status.unknown.code], origin := .handler }

end Sys2Proof.Machine
end

