-- ==== Sys2Proof/Machine/ExecLink.lean ====
section
/-! DEFINITION. The meanings of the resets and of the link's commands (Host Link and Requests). -/

namespace Sys2Proof.Machine

/-- What a meaning answers. -/
abbrev Result := Host.Outcome State Fault Refusal

/-- R176: every block takes its power-on values, the straps are sampled, READY with cause POWER is pending. -/
def execPowerOn (baud1 baud0 : PinLevel) (s : State) : Result := .next (s.powerOn baud1 baud0)

/-- R176: work in flight is discarded, every block takes its reset values, READY with cause PIN is pending. -/
def execPinReset (baud1 baud0 : PinLevel) (s : State) : Result := .next (s.pinReset baud1 baud0)

/-- R175: the last byte of the RESET reply has been sent and the part performs the soft reset. With no RESET reply
on the wire nothing happens (log 1, 3). -/
def execSoftReset (s : State) : Result := .next (if s.link.sendingReset then s.softReset else s)

/-- R174: IDENT. -/
def execIdent (tag : Byte) (payload : List Byte) (s : State) : Result :=
  .next (serve s { tag := tag, code := 0x01, payload := payload } (exactly 0) fun s1 _ => .ok s1 (identContent s1))

/-- R175: RESET. -/
def execReset (tag : Byte) (payload : List Byte) (s : State) : Result :=
  .next (serve s { tag := tag, code := 0x02, payload := payload } (exactly 0) fun s1 _ => resetRequest s1)

/-- R173: NOTICE_MASK. -/
def execNoticeMask (tag : Byte) (payload : List Byte) (s : State) : Result :=
  .next (serve s { tag := tag, code := 0x03, payload := payload } (exactly 1) fun s1 p =>
    match p with
    | [m] => noticeMask s1 m
    | _ => .refuse s1 .length)

/-- R131: a good request frame whose code names no request is answered UNKNOWN (TAG for tag 0). A code of the table is
not this command's (log 1). -/
def execUnknownCode (tag code : Byte) (payload : List Byte) (s : State) : Result :=
  .next (if requestCodes.contains code then s else serveUnknown s { tag := tag, code := code, payload := payload })

/-- R166: the samples are taken and the last completes a length outside 2 to 1026: the frame is discarded and
counted. Otherwise nothing happens (log 1, 6). -/
def execFrameLengthError (samples : List PinLevel) (s : State) : Result :=
  .next (if endsInBadLength s samples then s.takeLinkSamples samples else s)

/-- R168: a gap of more than 20 ms inside a frame. -/
def execFrameTimeout (s : State) : Result := .next s.frameTimeout

/-- R165 to R169: the samples are taken one at a time; each frame they complete is judged (log 6). -/
def execFrameReceived (samples : List PinLevel) (s : State) : Result := .next (s.takeLinkSamples samples)

/-- R171: the last byte of the frame on the wire has been sent. -/
def execFrameSent (s : State) : Result := .next s.frameSent

end Sys2Proof.Machine
end

