-- ==== Sys2Proof/Machine/ExecFilter.lean ====
section
/-! DEFINITION. The meanings of the filter table's requests (Filter Table). -/

namespace Sys2Proof.Machine

/-- R67: FILTER_WRITE. -/
def execFilterWrite (tag : Byte) (payload : List Byte) (s : State) : Result :=
  .next (serve s { tag := tag, code := 0x30, payload := payload } (exactly 15) fun s1 p =>
    match p with
    | b :: entry => filterWrite s1 b entry
    | [] => .refuse s1 .length)

/-- R68: FILTER_ENABLE. -/
def execFilterEnable (tag : Byte) (payload : List Byte) (s : State) : Result :=
  .next (serve s { tag := tag, code := 0x31, payload := payload } (exactly 8) fun s1 p =>
    filterEnable s1 (BitVec.ofNat 32 (natOfBytes (p.take 4))) (BitVec.ofNat 32 (natOfBytes (p.drop 4))))

/-- R69: FILTER_READ. -/
def execFilterRead (tag : Byte) (payload : List Byte) (s : State) : Result :=
  .next (serve s { tag := tag, code := 0x32, payload := payload } (exactly 1) fun s1 p =>
    match p with
    | [b] => filterRead s1 b
    | _ => .refuse s1 .length)

end Sys2Proof.Machine
end

