-- ==== Sys2Proof/Machine/ExecLine.lean ====
section
/-! DEFINITION. The meanings of the line requests and of the rows that take a sample of a line (Line Receivers, Message Assembly). -/

namespace Sys2Proof.Machine

/-- R2: LINE_CONFIG. -/
def execLineConfig (tag : Byte) (payload : List Byte) (s : State) : Result :=
  .next (serve s { tag := tag, code := 0x10, payload := payload } (exactly 16) fun s1 p =>
    match p with
    | b :: rest => withLine s1 b fun i => lineConfig s1 i rest
    | [] => .refuse s1 .length)

/-- R5: LINE_START. -/
def execLineStart (tag : Byte) (payload : List Byte) (s : State) : Result :=
  .next (serve s { tag := tag, code := 0x11, payload := payload } (exactly 1) fun s1 p =>
    match p with
    | [b] => withLine s1 b fun i => lineStart s1 i
    | _ => .refuse s1 .length)

/-- R15: LINE_STOP. -/
def execLineStop (tag : Byte) (payload : List Byte) (s : State) : Result :=
  .next (serve s { tag := tag, code := 0x12, payload := payload } (exactly 1) fun s1 p =>
    match p with
    | [b] => withLine s1 b fun i => lineStop s1 i
    | _ => .refuse s1 .length)

/-- R16: LINE_RESET. -/
def execLineReset (tag : Byte) (payload : List Byte) (s : State) : Result :=
  .next (serve s { tag := tag, code := 0x13, payload := payload } (exactly 1) fun s1 p =>
    match p with
    | [b] => withLine s1 b fun i => lineReset s1 i
    | _ => .refuse s1 .length)

/-- R17: LINE_STATUS. -/
def execLineStatus (tag : Byte) (payload : List Byte) (s : State) : Result :=
  .next (serve s { tag := tag, code := 0x14, payload := payload } (exactly 1) fun s1 p =>
    match p with
    | [b] => withLine s1 b fun i => .ok s1 (lineStatusContent i (s1.line i).rx)
    | _ => .refuse s1 .length)

/-- R3, R13: one sample of a line at its pin's level, whatever it brings about. -/
def execLineSample (i : LineId) (pin : PinLevel) (s : State) : Result := .next (takeSample s i (lineLevel s i pin))

/-- R5: the mark sample that ends SETTLE. -/
def execSettleEnd (i : LineId) (s : State) : Result :=
  .next (sampleIf s i .mark fun o => match o with
    | .settled => true
    | _ => false)

/-- R6: the space sample that begins a start bit. -/
def execStartBitFall (i : LineId) (s : State) : Result :=
  .next (sampleIf s i .space fun o => match o with
    | .fall => true
    | _ => false)

/-- R6: sample 9 of the start bit: validated, or a false start. -/
def execStartBitValidation (i : LineId) (pin : PinLevel) (s : State) : Result :=
  .next (sampleIf s i (lineLevel s i pin) fun o => match o with
    | .validated | .falseStart => true
    | _ => false)

/-- R10: the last sample of a character's frame. -/
def execCharacterDelivered (i : LineId) (pin : PinLevel) (s : State) : Result :=
  .next (sampleIf s i (lineLevel s i pin) fun o => match o with
    | .character _ => true
    | _ => false)

/-- R9: sample 9 of the first stop bit, with every slot space. -/
def execBreakRecognised (i : LineId) (pin : PinLevel) (s : State) : Result :=
  .next (sampleIf s i (lineLevel s i pin) fun o => match o with
    | .breakFound => true
    | _ => false)

/-- R12: the eighth mark sample in a row in BREAK_HOLD. -/
def execBreakEvent (i : LineId) (s : State) : Result :=
  .next (sampleIf s i .mark fun o => match o with
    | .breakEnded _ => true
    | _ => false)

/-- R26: the mark sample at which the idle measure rises to the gap threshold with a message open. -/
def execGapCompletion (i : LineId) (s : State) : Result :=
  .next (sampleIf s i .mark fun o => match o with
    | .idleRose n => gapCompletes (s.line i) n
    | _ => false)

end Sys2Proof.Machine
end

