-- ==== Sys2Proof/Machine/Timers.lean ====
section
/-! DEFINITION. The timer units, the event input pins and the tick (R38 to R56), with the requests that reach them. -/

namespace Sys2Proof.Machine

/-! ### Timer units (R49 to R56) -/

/-- R51. -/
def State.startTimer (s : State) (u : UnitId) : State := s.setTimer u (s.timer u).start

/-- R52. -/
def State.stopTimer (s : State) (u : UnitId) : State := s.setTimer u (s.timer u).stop

/-- R53: the count is copied into the capture slot and a MEAS record is offered to the unit's mask. -/
def State.captureTimer (s : State) (u : UnitId) : State :=
  let t := s.timer u
  (s.setTimer u { t with capture := t.count }).offerSet t.mask (measRecord u t.count s.tb.counter s.epochTag)

/-- R54: a unit after one tick. -/
def TimerUnit.tick (t : TimerUnit) : TimerUnit :=
  match t.state with
  | .idle | .expired => t
  | .running =>
    if t.count + 1 < t.limit then { t with count := t.count + 1 }
    else
      match t.mode with
      | .once => { t with count := t.limit, state := .expired }
      | .repeating => { t with count := 0 }

/-- R54: the unit expires at its next tick. -/
def TimerUnit.expiring (t : TimerUnit) : Bool := t.state == .running && decide (t.limit ≤ t.count + 1)

/-- R49: the fields of a TIMER_CONFIG after the unit number. -/
def timerConfig (s : State) (u : UnitId) (limit : Nat) (modeByte flagByte maskByte : Byte) : Answer :=
  if (s.timer u).state ≠ .idle then .refuse s .state
  else
    match inRange 1 16777215 limit, TimerMode.ofCode modeByte, flagOptOfByte flagByte, quadSetOfByte maskByte with
    | some l, some m, some f, some k =>
      .ok (s.setTimer u { s.timer u with limit := l, mode := m, flag := f, mask := k }) []
    | _, _, _, _ => .refuse s .range

/-- R136's codes of a timer state. -/
def TimerState.code : TimerState → Byte
  | .idle => 0
  | .running => 1
  | .expired => 2

/-- R56, R133: the TIMER_READ content. -/
def timerContent (u : UnitId) (t : TimerUnit) : List Byte :=
  [BitVec.ofNat 8 u.val, t.state.code] ++ bytesOfNat 3 t.count ++ bytesOfNat 3 t.capture ++ [t.generation]

/-- A timer unit named by a request: above 3 is refused with RANGE. -/
def withUnit (s : State) (b : Byte) (act : UnitId → Answer) : Answer :=
  match quadOfByte b with
  | none => .refuse s .range
  | some u => act u

/-! ### Event input pins (R43 to R48) -/

/-- R47: the counter becomes 0, the epoch increments, and an EPOCH record with cause SYNC goes to every region. The
prescaler's restart moves only when the next tick comes (log 4). -/
def State.syncRestart (s : State) (p : PinId) : State :=
  let s1 := s.setTb { s.tb with counter := 0, epoch := s.tb.epoch + 1 }
  s1.offerSet 0xF (epochRecord s1.tb.epoch (some p))

/-- R44: the edge is valid under the pin's settings. -/
def InputPin.valid (p : InputPin) (e : Edge) : Bool :=
  match p.func with
  | .off => false
  | .syncCapture | .syncRestart | .flag =>
    match p.edge, e with
    | .rising, .rising => true
    | .rising, .falling => false
    | .falling, .rising => false
    | .falling, .falling => true
    | .both, _ => true

/-- R44 to R48: an edge acts by the pin's function if it is valid. -/
def State.takeEdge (s : State) (i : PinId) (e : Edge) : State :=
  let p := s.pin i
  if p.valid e then
    match p.func with
    | .off => s
    | .syncCapture => s.offerSet p.mask (syncRecord i e s.tb.counter s.epochTag)
    | .syncRestart => s.syncRestart i
    | .flag => s.joinQueue (.input i p.flag)
  else s

/-- The edge that leads to an accepted level (R44). -/
def edgeTo : PinLevel → Edge
  | .high => .rising
  | .low => .falling

/-- R44: one sample of a pin moves its filter; an accepted change is taken as an edge. -/
def State.samplePin (s : State) (i : PinId) (level : PinLevel) : State :=
  let p := s.pin i
  match p.accepted with
  | none => s.setPin i { p with accepted := some level, opposite := false }
  | some a =>
    if level = a then s.setPin i { p with opposite := false }
    else if p.opposite then
      (s.setPin i { p with accepted := some level, opposite := false }).takeEdge i (edgeTo level)
    else s.setPin i { p with opposite := true }

/-- Samples of a pin, oldest first. -/
def State.samplePins (s : State) (i : PinId) : List PinLevel → State
  | [] => s
  | l :: t => (s.samplePin i l).samplePins i t

/-- R45: the first change of the function from OFF takes a rising edge when the pin's accepted level is high and
rising edges are valid. -/
def firstEnableEdge (old new : InputPin) : Bool :=
  old.func == .off && new.func != .off && !old.marker && new.edge != .falling && old.accepted == some .high

/-- R43, R45: the settings replaced, the marker and the first-enable edge. -/
def State.configurePin (s : State) (i : PinId) (f : PinFunction) (e : EdgeSelect) (flag : FlagId) (m : QuadSet) :
    State :=
  let old := s.pin i
  let new := { old with
    func := f, edge := e, flag := flag, mask := m
    marker := old.marker || (old.func == .off && f != .off) }
  let s1 := s.setPin i new
  if firstEnableEdge old new then s1.takeEdge i .rising else s1

/-- A pin number: above 1 is out of range (R43). -/
def pinOfByte (b : Byte) : Option PinId :=
  if h : b.toNat < 2 then some ⟨b.toNat, h⟩ else none

/-- R43: INPUT_CONFIG. -/
def inputConfig (s : State) (pinByte funcByte edgeByte flagByte maskByte : Byte) : Answer :=
  match pinOfByte pinByte, PinFunction.ofCode funcByte, EdgeSelect.ofCode edgeByte, flagOfByte flagByte,
    quadSetOfByte maskByte with
  | some i, some f, some e, some fl, some m => .ok (s.configurePin i f e fl m) []
  | _, _, _, _, _ => .refuse s .range

/-! ### The time base (R38 to R42) -/

/-- R39: the next tick takes the counter past 0xFFFFFFFF. -/
def State.wrapping (s : State) : Bool := s.tb.counter == 0xFFFFFFFF

/-- R39: the counter after a tick, and the EPOCH record of a wrap. -/
def State.tickCounter (s : State) : State :=
  if s.wrapping then
    let s1 := s.setTb { s.tb with counter := 0, epoch := s.tb.epoch + 1 }
    s1.offerSet 0xF (epochRecord s1.tb.epoch none)
  else s.setTb { s.tb with counter := s.tb.counter + 1 }

/-- R12, R21: the count of ticks since the start bit advances from its validation to the end of the character or
break (log 24). -/
def Receiver.tick (r : Receiver) : Receiver :=
  match r.state with
  | .char | .breakHold => { r with tickCount := satInc Config.tickMax r.tickCount }
  | .off | .settle | .hunt => r

/-- R21: an open message's tick count. -/
def Message.tick (m : Message) : Message := { m with ticks := satInc Config.tickMax m.ticks }

/-- A line after one tick. -/
def Line.tick (l : Line) : Line := { l with rx := l.rx.tick, msg := l.msg.map Message.tick }

/-- R93: an active pulse after one tick. -/
def TrigOut.tick (o : TrigOut) : TrigOut :=
  match o.pulse with
  | none => o
  | some n => { o with pulse := if n ≤ 1 then none else some (n - 1) }

/-- R93: the next tick ends the active pulse. -/
def TrigOut.ending (o : TrigOut) : Bool :=
  match o.pulse with
  | none => false
  | some n => decide (n ≤ 1)

/-- R54: the timer event of a unit that expires at this tick. -/
def expiryEvent (u : UnitId) (t : TimerUnit) : SeqEvent := .timer u t.flag t.generation

/-- The timer events of one tick, in ascending order of the units. -/
def State.expiries (s : State) : List SeqEvent :=
  (quadList.filter (fun u => (s.timer u).expiring)).map (fun u => expiryEvent u (s.timer u))

/-- Put an event at a place counted from the front. -/
def putAt (e : SeqEvent) : List SeqEvent → Nat → List SeqEvent
  | [], _ => [e]
  | x :: t, n => if n = 0 then e :: x :: t else x :: putAt e t (n - 1)

/-- Events that arrive together in an order the spec leaves open: the places are free values (R79, log 10). -/
def arrangeEvents (free : Nat) : List SeqEvent → List SeqEvent
  | [] => []
  | e :: t => putAt e (arrangeEvents free t) (Config.arrivalPlace (free + t.length))

/-- Events join the queue one after another. -/
def State.joinAll (s : State) : List SeqEvent → State
  | [] => s
  | e :: t => (s.joinQueue e).joinAll t

/-- R38: one tick, seen at once by everything that counts in ticks; the timer events it causes then join the queue. -/
def State.tick (s : State) : State :=
  let s1 := s.tickCounter
  let s2 := { s1 with
    lines := s1.lines.map Line.tick
    timers := s1.timers.map TimerUnit.tick
    seq := { s1.seq with out := s1.seq.out.tick }
    free := s1.free + s.expiries.length }
  s2.joinAll (arrangeEvents s.free s.expiries)

/-- R41: TIME_CONFIG is accepted when every line is OFF and every timer unit is IDLE. The prescaler's restart moves
only when the next tick comes (log 4). -/
def timeConfig (s : State) (div : Byte) : Answer :=
  if quadList.all (fun i => (s.line i).rx.state == .off) && quadList.all (fun u => (s.timer u).state == .idle) then
    .ok (s.setTb { s.tb with tickDiv := div }) []
  else .refuse s .state

/-- R42: epoch and counter. -/
def timeContent (s : State) : List Byte := bytesOfNat 2 s.tb.epoch.toNat ++ bytesOfNat 4 s.tb.counter.toNat

end Sys2Proof.Machine
end

