-- ==== Sys2Proof/Machine/Sequencer.lean ====
section
/-! DEFINITION. The trigger sequencer: step entry, the taking of events, exits, actions, the fire, TRIG_OUT, and the requests of its chapter (R71 to R96). -/

namespace Sys2Proof.Machine

/-! ### TRIG_OUT (R93) -/

/-- A pulse request: ignored while the fire level is held, else the pulse starts or restarts. -/
def TrigOut.pulseRequest (o : TrigOut) : TrigOut := if o.held then o else { o with pulse := some o.width }

/-- A fire drives the output. -/
def TrigOut.fire (o : TrigOut) : TrigOut :=
  match o.mode with
  | .level => { o with held := true }
  | .pulse => o.pulseRequest

/-- A release. -/
def TrigOut.release (o : TrigOut) : TrigOut := { o with held := false, pulse := none }

def State.setOut (s : State) (o : TrigOut) : State := s.setSeq { s.seq with out := o }

/-! ### Step entry, the fire, exits (R77, R84 to R86) -/

/-- R77: a step is entered. -/
def State.enterStep (s : State) (i : Fin 16) : State :=
  let s1 := s.setSeq { s.seq with current := i, occurrence := 0 }
  match s1.seq.step?.bind (·.guard) with
  | none => s1
  | some u =>
    let s2 := s1.startTimer u
    s2.setSeq { s2.seq with guardGen := (s2.timer u).generation }

/-- The fire record of this moment (R86 point 2). -/
def State.fireRecord (s : State) (cause : FireCause) : FireRecord :=
  { step := s.seq.current, cause := cause, time := s.tb.counter, tag := s.epochTag }

/-- R132: the TRIGGER payload. -/
def triggerPayload (f : FireRecord) : List Byte :=
  [BitVec.ofNat 8 f.step.val, BitVec.ofNat 8 f.cause.code] ++ bytesOfNat 4 f.time.toNat ++ [f.tag]

/-- R86: the fire. -/
def State.fire (s : State) (cause : FireCause) : State :=
  let f := s.fireRecord cause
  let s1 := s.setSeq { s.seq with state := .fired, lastFire := some f }
  let s2 := s1.offerSet s1.seq.trigMask (trigRecord f)
  (s2.setOut s2.seq.out.fire).raise { kind := .trigger, payload := triggerPayload f }

/-- R84 point 3: the target of an exit. -/
def State.goTarget (s : State) (t : ExitTarget) (cause : FireCause) : State :=
  match t with
  | .step i => s.enterStep i
  | .ret =>
    match s.seq.link with
    | some r => (s.setSeq { s.seq with link := none }).enterStep r
    | none => s.seqFault .emptyReturn
  | .fire => s.fire cause

/-- R84: the match exit of a step. -/
def State.matchExit (s : State) (st : StepRecord) : State :=
  let s1 := s.stopGuard (some st)
  let s2 :=
    match st.matchKind with
    | .go => s1
    | .call => s1.setSeq { s1.seq with link := some (s1.seq.current + 1) }
  s2.goTarget st.matchTarget .matched

/-- R84: the else exit of a step with a guard. -/
def State.elseExit (s : State) (st : StepRecord) : State :=
  let s1 := s.stopGuard (some st)
  match st.elseTarget with
  | none => s1
  | some t => s1.goTarget t .elsed

/-! ### Actions (R90, R91) -/

/-- An action, performed whole. -/
def State.performAction (s : State) (a : StepAction) : State :=
  match a with
  | .none => s
  | .startTimer u => s.startTimer u
  | .stopTimer u => s.stopTimer u
  | .captureTimer u => s.captureTimer u
  | .setFlag f => s.setSeq { s.seq with flags := s.seq.flags ||| flagBit f }
  | .clearFlag f => s.setSeq { s.seq with flags := s.seq.flags &&& ~~~flagBit f }
  | .mark v => s.offerSet s.seq.markMask (markRecord s.seq.current v s.tb.counter s.epochTag)
  | .pulse => s.setOut s.seq.out.pulseRequest
  | .send c => s.sendCanned c

/-- The step's action, when its timing is the one given (R92). -/
def State.actionAt (s : State) (st : StepRecord) (t : ActionTiming) : State :=
  if st.timing = t then s.performAction st.action else s

/-! ### Taking an event (R79, R81 to R83) -/

/-- R82: the flags an event sets. -/
def SeqEvent.toSet : SeqEvent → FlagSet
  | .message _ flags => flags
  | .timer _ flag _ => flagBit? flag
  | .input _ flag => flagBit flag
  | .host toSet _ => toSet

/-- R82: the flags an event clears. -/
def SeqEvent.toClear : SeqEvent → FlagSet
  | .host _ toClear => toClear
  | .message _ _ | .timer _ _ _ | .input _ _ => 0

/-- R81: the event is a guard expiry of the step. -/
def isGuardExpiry (st : StepRecord) (guardGen : Byte) : SeqEvent → Bool
  | .timer u _ g => st.guard == some u && g == guardGen
  | .message _ _ | .input _ _ | .host _ _ => false

/-- R81: a guard expiry sets its flag, performs an ELSE action and takes the else exit. -/
def State.guardExpiry (s : State) (st : StepRecord) (e : SeqEvent) : State :=
  let s1 := s.setSeq { s.seq with flags := s.seq.flags ||| e.toSet }
  (s1.actionAt st .onElse).elseExit st

/-- R82: the event qualifies, judged on the flags after it has been applied. -/
def qualifies (st : StepRecord) (e : SeqEvent) (flags : FlagSet) : Bool :=
  e.toSet &&& st.mask != 0 && condHolds st flags

/-- R83 point 3: consume clears every flag of the mask. -/
def State.consume (s : State) (st : StepRecord) : State :=
  if st.consume then s.setSeq { s.seq with flags := s.seq.flags &&& ~~~st.mask } else s

/-- R83: a qualifying event advances the step. -/
def State.advanceStep (s : State) (st : StepRecord) : State :=
  let n := satInc Config.count16Max s.seq.occurrence
  let s1 := (s.setSeq { s.seq with occurrence := n }).actionAt st .each
  if n = st.occurrences then ((s1.actionAt st .exit).consume st).matchExit st else s1

/-- R82: a flag event is applied, and advances the step if it qualifies. -/
def State.flagEvent (s : State) (st : StepRecord) (e : SeqEvent) : State :=
  let s1 := s.setSeq { s.seq with flags := applyFlags s.seq.flags e.toSet e.toClear }
  if qualifies st e s1.seq.flags then s1.advanceStep st else s1

/-- R81, R82: an event judged against the current step. An ARMED sequencer's current step is always loaded (R83;
log 19). -/
def State.judgeEvent (s : State) (e : SeqEvent) : State :=
  match s.seq.step? with
  | none => s
  | some st => if isGuardExpiry st s.seq.guardGen e then s.guardExpiry st e else s.flagEvent st e

/-- R79: the sequencer takes its oldest event; outside ARMED it is discarded. -/
def State.takeEvent (s : State) : State :=
  match s.seq.queue with
  | [] => s
  | e :: rest =>
    let s1 := (s.setSeq { s.seq with queue := rest }).countTaken
    if s.seq.state = .armed then s1.judgeEvent e else s1

/-! ### Requests (R73 to R76, R78, R80, R87, R88, R94, R95) -/

/-- R73 to R75: SEQ_LOAD; the payload's length has been judged. -/
def seqLoad (s : State) (bytes : List Byte) : Answer :=
  if s.seq.state = .armed then .refuse s .state
  else
    let loaded := bytes.length / 12
    match parseTable loaded bytes with
    | none => .refuse s .range
    | some table =>
      match firstBreak loaded 0 table with
      | some i => ⟨s, .rule, [BitVec.ofNat 8 i]⟩
      | none => .ok (s.setSeq { s.seq with table := table, state := .idle, cause := .none }) []

/-- R76: SEQ_ARM. -/
def seqArm (s : State) : Answer :=
  if s.seq.state = .armed then .refuse s .state
  else if s.seq.table.isEmpty then .refuse s .rule
  else
    let s1 := s.setSeq { s.seq with
      flags := 0, link := none, queue := [], out := s.seq.out.release, cause := .none }
    let s2 := s1.enterStep 0
    .ok (s2.setSeq { s2.seq with state := .armed }) []

/-- R78: SEQ_DISARM. -/
def seqDisarm (s : State) : Answer :=
  let s1 := if s.seq.state = .armed then s.stopGuard s.seq.step? else s
  .ok (s1.setSeq { s1.seq with state := .idle, out := s1.seq.out.release }) []

/-- R87: SEQ_FORCE. -/
def seqForce (s : State) : Answer :=
  if s.seq.state = .armed then .ok ((s.stopGuard s.seq.step?).fire .forced) [] else .refuse s .state

/-- R88: SEQ_MASKS. -/
def seqMasks (s : State) (trig mark : Byte) : Answer :=
  match quadSetOfByte trig, quadSetOfByte mark with
  | some t, some m => .ok (s.setSeq { s.seq with trigMask := t, markMask := m }) []
  | _, _ => .refuse s .range

/-- R80: FLAGS_WRITE. -/
def flagsWrite (s : State) (toSet toClear : Byte) : Answer :=
  if toSet &&& toClear ≠ 0 then .refuse s .range
  else if s.seq.state = .armed then
    if s.seq.queue.length < Config.eventPlaces then .ok (s.joinQueue (.host toSet toClear)) []
    else ⟨s.joinQueue (.host toSet toClear), .full, []⟩
  else .ok (s.setSeq { s.seq with flags := applyFlags s.seq.flags toSet toClear }) []

def OutputMode.ofCode (b : Byte) : Option OutputMode :=
  if b = 0 then some .level else if b = 1 then some .pulse else none

def idleLevelOfCode (b : Byte) : Option PinLevel :=
  if b = 0 then some .low else if b = 1 then some .high else none

/-- R94: OUTPUT_CONFIG. -/
def outputConfig (s : State) (idleByte modeByte : Byte) (width : Nat) : Answer :=
  if s.seq.out.asserted then .refuse s .state
  else
    match idleLevelOfCode idleByte, OutputMode.ofCode modeByte, inRange 1 65535 width with
    | some l, some m, some w => .ok (s.setOut { s.seq.out with idleLevel := l, mode := m, width := w }) []
    | _, _, _ => .refuse s .range

/-- R136's codes of a sequencer state. -/
def SeqState.code : SeqState → Byte
  | .idle => 0
  | .armed => 1
  | .fired => 2
  | .fault => 3

/-- R136: the SEQ_STATUS content. -/
def seqStatusContent (q : Sequencer) : List Byte :=
  [q.state.code, BitVec.ofNat 8 q.table.length, BitVec.ofNat 8 q.current.val] ++ bytesOfNat 2 q.occurrence ++
    [q.guardGen, q.flags, match q.link with | none => 0xFF | some r => BitVec.ofNat 8 r.val,
      BitVec.ofNat 8 q.queue.length, q.cause.code, byteOfBits [q.out.asserted], byteOfBits [q.lastFire.isSome]] ++
    match q.lastFire with
    | none => List.replicate 7 0
    | some f => triggerPayload f

end Sys2Proof.Machine
end

