-- ==== Sys2Proof/Machine/ExecSequencer.lean ====
section
/-! DEFINITION. The meanings of the trigger sequencer's commands (Trigger Sequencer). -/

namespace Sys2Proof.Machine

/-- R73 to R75: SEQ_LOAD. -/
def execSeqLoad (tag : Byte) (payload : List Byte) (s : State) : Result :=
  .next (serve s { tag := tag, code := 0x40, payload := payload } tableLength seqLoad)

/-- R76: SEQ_ARM. -/
def execSeqArm (tag : Byte) (payload : List Byte) (s : State) : Result :=
  .next (serve s { tag := tag, code := 0x41, payload := payload } (exactly 0) fun s1 _ => seqArm s1)

/-- R78: SEQ_DISARM. -/
def execSeqDisarm (tag : Byte) (payload : List Byte) (s : State) : Result :=
  .next (serve s { tag := tag, code := 0x42, payload := payload } (exactly 0) fun s1 _ => seqDisarm s1)

/-- R87: SEQ_FORCE. -/
def execSeqForce (tag : Byte) (payload : List Byte) (s : State) : Result :=
  .next (serve s { tag := tag, code := 0x43, payload := payload } (exactly 0) fun s1 _ => seqForce s1)

/-- R95: SEQ_STATUS. -/
def execSeqStatus (tag : Byte) (payload : List Byte) (s : State) : Result :=
  .next (serve s { tag := tag, code := 0x44, payload := payload } (exactly 0) fun s1 _ =>
    .ok s1 (seqStatusContent s1.seq))

/-- R88: SEQ_MASKS. -/
def execSeqMasks (tag : Byte) (payload : List Byte) (s : State) : Result :=
  .next (serve s { tag := tag, code := 0x45, payload := payload } (exactly 2) fun s1 p =>
    match p with
    | [t, m] => seqMasks s1 t m
    | _ => .refuse s1 .length)

/-- R80: FLAGS_WRITE. -/
def execFlagsWrite (tag : Byte) (payload : List Byte) (s : State) : Result :=
  .next (serve s { tag := tag, code := 0x46, payload := payload } (exactly 2) fun s1 p =>
    match p with
    | [a, b] => flagsWrite s1 a b
    | _ => .refuse s1 .length)

/-- R94: OUTPUT_CONFIG. -/
def execOutputConfig (tag : Byte) (payload : List Byte) (s : State) : Result :=
  .next (serve s { tag := tag, code := 0x47, payload := payload } (exactly 4) fun s1 p =>
    match p with
    | [l, m, w0, w1] => outputConfig s1 l m (natOfBytes [w0, w1])
    | _ => .refuse s1 .length)

/-- R79: the sequencer takes its oldest event; with an empty queue there is none (log 1). -/
def execEventTaken (s : State) : Result := .next s.takeEvent

end Sys2Proof.Machine
end

