-- ==== Sys2Proof/Machine/ExecStore.lean ====
section
/-! DEFINITION. The meanings of the capture store's requests and of STATS_READ (Capture Store, Statistics). -/

namespace Sys2Proof.Machine

/-- R99: REGION_CONFIG. -/
def execRegionConfig (tag : Byte) (payload : List Byte) (s : State) : Result :=
  .next (serve s { tag := tag, code := 0x50, payload := payload } (exactly 7) fun s1 p =>
    match p with
    | [b, base, z0, z1, pol, t0, t1] =>
      withRegion s1 b fun id =>
        regionConfig s1 id base.toNat (natOfBytes [z0, z1]) pol (natOfBytes [t0, t1])
    | _ => .refuse s1 .length)

/-- R102: REGION_START. -/
def execRegionStart (tag : Byte) (payload : List Byte) (s : State) : Result :=
  .next (serve s { tag := tag, code := 0x51, payload := payload } (exactly 4) fun s1 p =>
    match p with
    | [b, m, q0, q1] => withRegion s1 b fun id => regionStart s1 id m (natOfBytes [q0, q1])
    | _ => .refuse s1 .length)

/-- R103: REGION_STOP. -/
def execRegionStop (tag : Byte) (payload : List Byte) (s : State) : Result :=
  .next (serve s { tag := tag, code := 0x52, payload := payload } (exactly 1) fun s1 p =>
    match p with
    | [b] => withRegion s1 b fun id => regionStop s1 id
    | _ => .refuse s1 .length)

/-- R104: REGION_CLEAR. -/
def execRegionClear (tag : Byte) (payload : List Byte) (s : State) : Result :=
  .next (serve s { tag := tag, code := 0x53, payload := payload } (exactly 1) fun s1 p =>
    match p with
    | [b] => withRegion s1 b fun id => regionClear s1 id
    | _ => .refuse s1 .length)

/-- R124: REGION_STATUS. -/
def execRegionStatus (tag : Byte) (payload : List Byte) (s : State) : Result :=
  .next (serve s { tag := tag, code := 0x54, payload := payload } (exactly 1) fun s1 p =>
    match p with
    | [b] => withRegion s1 b fun id => .ok s1 (regionStatusContent id (s1.region id))
    | _ => .refuse s1 .length)

/-- R119: READ. -/
def execRead (tag : Byte) (payload : List Byte) (s : State) : Result :=
  .next (serve s { tag := tag, code := 0x55, payload := payload } (exactly 3) fun s1 p =>
    match p with
    | [b, m0, m1] => withRegion s1 b fun id => regionRead s1 id (natOfBytes [m0, m1])
    | _ => .refuse s1 .length)

/-- R120: RELEASE. -/
def execRelease (tag : Byte) (payload : List Byte) (s : State) : Result :=
  .next (serve s { tag := tag, code := 0x56, payload := payload } (exactly 3) fun s1 p =>
    match p with
    | [b, c0, c1] => withRegion s1 b fun id => regionRelease s1 id (natOfBytes [c0, c1])
    | _ => .refuse s1 .length)

/-- R121: REWIND. -/
def execRewind (tag : Byte) (payload : List Byte) (s : State) : Result :=
  .next (serve s { tag := tag, code := 0x57, payload := payload } (exactly 1) fun s1 p =>
    match p with
    | [b] => withRegion s1 b fun id => regionRewind s1 id
    | _ => .refuse s1 .length)

/-- R144: STATS_READ. -/
def execStatsRead (tag : Byte) (payload : List Byte) (s : State) : Result :=
  .next (serve s { tag := tag, code := 0x60, payload := payload } (exactly 2) fun s1 p =>
    match p with
    | [g, c] => statsRead s1 g c
    | _ => .refuse s1 .length)

end Sys2Proof.Machine
end

