-- ==== Sys2Proof/Machine/ExecTime.lean ====
section
/-! DEFINITION. The meanings of the time base's, the event input pins' and the timer units' commands (Time Base, Event Inputs and Timer Units). -/

namespace Sys2Proof.Machine

/-- R41: TIME_CONFIG. -/
def execTimeConfig (tag : Byte) (payload : List Byte) (s : State) : Result :=
  .next (serve s { tag := tag, code := 0x20, payload := payload } (exactly 1) fun s1 p =>
    match p with
    | [d] => timeConfig s1 d
    | _ => .refuse s1 .length)

/-- R42: TIME_READ. -/
def execTimeRead (tag : Byte) (payload : List Byte) (s : State) : Result :=
  .next (serve s { tag := tag, code := 0x21, payload := payload } (exactly 0) fun s1 _ => .ok s1 (timeContent s1))

/-- R43, R45: INPUT_CONFIG. -/
def execInputConfig (tag : Byte) (payload : List Byte) (s : State) : Result :=
  .next (serve s { tag := tag, code := 0x22, payload := payload } (exactly 5) fun s1 p =>
    match p with
    | [i, f, e, fl, m] => inputConfig s1 i f e fl m
    | _ => .refuse s1 .length)

/-- R49: TIMER_CONFIG. -/
def execTimerConfig (tag : Byte) (payload : List Byte) (s : State) : Result :=
  .next (serve s { tag := tag, code := 0x23, payload := payload } (exactly 7) fun s1 p =>
    match p with
    | [b, l0, l1, l2, m, f, k] => withUnit s1 b fun u => timerConfig s1 u (natOfBytes [l0, l1, l2]) m f k
    | _ => .refuse s1 .length)

/-- R51, R56: TIMER_CONTROL START, and a TIMER_CONTROL whose operation names none of the three, refused with RANGE
(log 23). -/
def execTimerControlStart (tag : Byte) (payload : List Byte) (s : State) : Result :=
  .next (if timerOperation payload = some 1 ∨ timerOperation payload = some 2 then s
    else serve s { tag := tag, code := 0x24, payload := payload } (exactly 2) fun s1 p =>
      match p with
      | [b, op] => if op = 0 then withUnit s1 b fun u => .ok (s1.startTimer u) [] else .refuse s1 .range
      | _ => .refuse s1 .length)

/-- R52, R56: TIMER_CONTROL STOP. -/
def execTimerControlStop (tag : Byte) (payload : List Byte) (s : State) : Result :=
  .next (if timerOperation payload = some 1 then
      serve s { tag := tag, code := 0x24, payload := payload } (exactly 2) fun s1 p =>
        match p with
        | [b, _] => withUnit s1 b fun u => .ok (s1.stopTimer u) []
        | _ => .refuse s1 .length
    else s)

/-- R53, R56: TIMER_CONTROL CAPTURE. -/
def execTimerControlCapture (tag : Byte) (payload : List Byte) (s : State) : Result :=
  .next (if timerOperation payload = some 2 then
      serve s { tag := tag, code := 0x24, payload := payload } (exactly 2) fun s1 p =>
        match p with
        | [b, _] => withUnit s1 b fun u => .ok (s1.captureTimer u) []
        | _ => .refuse s1 .length
    else s)

/-- R56: TIMER_READ. -/
def execTimerRead (tag : Byte) (payload : List Byte) (s : State) : Result :=
  .next (serve s { tag := tag, code := 0x25, payload := payload } (exactly 1) fun s1 p =>
    match p with
    | [b] => withUnit s1 b fun u => .ok s1 (timerContent u (s1.timer u))
    | _ => .refuse s1 .length)

/-- R44 to R48: samples of an event input pin, each moving its filter; an accepted change is taken as an edge
(log 7). -/
def execInputEdge (i : PinId) (samples : List PinLevel) (s : State) : Result := .next (s.samplePins i samples)

/-- R38: one tick, whatever it brings about. -/
def execTick (s : State) : Result := .next s.tick

/-- R39: the tick that wraps the counter (log 1, 3). -/
def execCounterWrap (s : State) : Result := .next (if s.wrapping then s.tick else s)

/-- R54: the tick at which the unit expires (log 1, 3). -/
def execTimerExpiry (u : UnitId) (s : State) : Result := .next (if (s.timer u).expiring then s.tick else s)

/-- R93: the tick that ends the active pulse (log 1, 3). -/
def execPulseEnd (s : State) : Result := .next (if s.seq.out.ending then s.tick else s)

end Sys2Proof.Machine
end

