-- ==== Sys2Proof/Machine/ExecTransmit.lean ====
section
/-! DEFINITION. The meanings of the transmit units' commands (Transmit Unit). -/

namespace Sys2Proof.Machine

/-- R150: SEND. -/
def execSend (tag : Byte) (payload : List Byte) (s : State) : Result :=
  .next (serve s { tag := tag, code := 0x70, payload := payload } (between 5 260) fun s1 p =>
    match p with
    | b :: pre :: brk :: opts :: data => withLine s1 b fun i => sendRequest s1 i pre brk opts data
    | _ => .refuse s1 .length)

/-- R151: CANNED_WRITE. -/
def execCannedWrite (tag : Byte) (payload : List Byte) (s : State) : Result :=
  .next (serve s { tag := tag, code := 0x71, payload := payload } (between 5 69) fun s1 p =>
    match p with
    | c :: b :: pre :: brk :: opts :: data => cannedWrite s1 c b pre brk opts data
    | _ => .refuse s1 .length)

/-- R161: TX_FLUSH. -/
def execTxFlush (tag : Byte) (payload : List Byte) (s : State) : Result :=
  .next (serve s { tag := tag, code := 0x72, payload := payload } (exactly 1) fun s1 p =>
    match p with
    | [b] => withLine s1 b fun i => .ok (flushTx s1 i) []
    | _ => .refuse s1 .length)

/-- R164: TX_STATUS. -/
def execTxStatus (tag : Byte) (payload : List Byte) (s : State) : Result :=
  .next (serve s { tag := tag, code := 0x73, payload := payload } (exactly 1) fun s1 p =>
    match p with
    | [b] => withLine s1 b fun i => .ok s1 (txStatusContent i (s1.line i).tx)
    | _ => .refuse s1 .length)

/-- R153: a waiting transmission takes the line when every condition holds (log 1). -/
def execTakeLine (i : LineId) (s : State) : Result := .next (takeLine s i)

/-- R154: the preamble's bit times are complete. -/
def execPreambleEnd (i : LineId) (s : State) : Result := .next (preambleEnd s i)

/-- R155: the break and its bit time of mark are complete. -/
def execTxBreakEnd (i : LineId) (s : State) : Result := .next (txBreakEnd s i)

/-- R156: a sent character's last stop bit ends. -/
def execTxCharacterEnd (i : LineId) (s : State) : Result := .next (txCharacterEnd s i)

/-- R157: the oldest awaited echo's deadline passes. -/
def execEchoDeadline (i : LineId) (s : State) : Result := .next (echoDeadline s i)

/-- R159: the turnaround hold is complete. -/
def execHoldEnd (i : LineId) (s : State) : Result := .next (holdEnd s i)

end Sys2Proof.Machine
end

