-- ==== Sys2Proof/Machine/Dispatch.lean ====
section
/-! DEFINITION. The dispatch: one arm per command, one call of its meaning. -/

namespace Sys2Proof.Machine

def exec (i : Instr) (s : State) : Host.Outcome State Fault Refusal :=
  match i with
  | .powerOn baud1 baud0 => Sys2Proof.Machine.execPowerOn baud1 baud0 s
  | .pinReset baud1 baud0 => Sys2Proof.Machine.execPinReset baud1 baud0 s
  | .softReset => Sys2Proof.Machine.execSoftReset s
  | .ident tag payload => Sys2Proof.Machine.execIdent tag payload s
  | .reset tag payload => Sys2Proof.Machine.execReset tag payload s
  | .noticeMask tag payload => Sys2Proof.Machine.execNoticeMask tag payload s
  | .unknownCode tag code payload => Sys2Proof.Machine.execUnknownCode tag code payload s
  | .lineConfig tag payload => Sys2Proof.Machine.execLineConfig tag payload s
  | .lineStart tag payload => Sys2Proof.Machine.execLineStart tag payload s
  | .lineStop tag payload => Sys2Proof.Machine.execLineStop tag payload s
  | .lineReset tag payload => Sys2Proof.Machine.execLineReset tag payload s
  | .lineStatus tag payload => Sys2Proof.Machine.execLineStatus tag payload s
  | .timeConfig tag payload => Sys2Proof.Machine.execTimeConfig tag payload s
  | .timeRead tag payload => Sys2Proof.Machine.execTimeRead tag payload s
  | .inputConfig tag payload => Sys2Proof.Machine.execInputConfig tag payload s
  | .timerConfig tag payload => Sys2Proof.Machine.execTimerConfig tag payload s
  | .timerControlStart tag payload => Sys2Proof.Machine.execTimerControlStart tag payload s
  | .timerControlStop tag payload => Sys2Proof.Machine.execTimerControlStop tag payload s
  | .timerControlCapture tag payload => Sys2Proof.Machine.execTimerControlCapture tag payload s
  | .timerRead tag payload => Sys2Proof.Machine.execTimerRead tag payload s
  | .filterWrite tag payload => Sys2Proof.Machine.execFilterWrite tag payload s
  | .filterEnable tag payload => Sys2Proof.Machine.execFilterEnable tag payload s
  | .filterRead tag payload => Sys2Proof.Machine.execFilterRead tag payload s
  | .seqLoad tag payload => Sys2Proof.Machine.execSeqLoad tag payload s
  | .seqArm tag payload => Sys2Proof.Machine.execSeqArm tag payload s
  | .seqDisarm tag payload => Sys2Proof.Machine.execSeqDisarm tag payload s
  | .seqForce tag payload => Sys2Proof.Machine.execSeqForce tag payload s
  | .seqStatus tag payload => Sys2Proof.Machine.execSeqStatus tag payload s
  | .seqMasks tag payload => Sys2Proof.Machine.execSeqMasks tag payload s
  | .flagsWrite tag payload => Sys2Proof.Machine.execFlagsWrite tag payload s
  | .outputConfig tag payload => Sys2Proof.Machine.execOutputConfig tag payload s
  | .regionConfig tag payload => Sys2Proof.Machine.execRegionConfig tag payload s
  | .regionStart tag payload => Sys2Proof.Machine.execRegionStart tag payload s
  | .regionStop tag payload => Sys2Proof.Machine.execRegionStop tag payload s
  | .regionClear tag payload => Sys2Proof.Machine.execRegionClear tag payload s
  | .regionStatus tag payload => Sys2Proof.Machine.execRegionStatus tag payload s
  | .read tag payload => Sys2Proof.Machine.execRead tag payload s
  | .release tag payload => Sys2Proof.Machine.execRelease tag payload s
  | .rewind tag payload => Sys2Proof.Machine.execRewind tag payload s
  | .statsRead tag payload => Sys2Proof.Machine.execStatsRead tag payload s
  | .send tag payload => Sys2Proof.Machine.execSend tag payload s
  | .cannedWrite tag payload => Sys2Proof.Machine.execCannedWrite tag payload s
  | .txFlush tag payload => Sys2Proof.Machine.execTxFlush tag payload s
  | .txStatus tag payload => Sys2Proof.Machine.execTxStatus tag payload s
  | .settleEnd line => Sys2Proof.Machine.execSettleEnd line s
  | .startBitFall line => Sys2Proof.Machine.execStartBitFall line s
  | .startBitValidation line pin => Sys2Proof.Machine.execStartBitValidation line pin s
  | .characterDelivered line pin => Sys2Proof.Machine.execCharacterDelivered line pin s
  | .breakRecognised line pin => Sys2Proof.Machine.execBreakRecognised line pin s
  | .breakEvent line => Sys2Proof.Machine.execBreakEvent line s
  | .gapCompletion line => Sys2Proof.Machine.execGapCompletion line s
  | .counterWrap => Sys2Proof.Machine.execCounterWrap s
  | .inputEdge pin samples => Sys2Proof.Machine.execInputEdge pin samples s
  | .timerExpiry u => Sys2Proof.Machine.execTimerExpiry u s
  | .eventTaken => Sys2Proof.Machine.execEventTaken s
  | .pulseEnd => Sys2Proof.Machine.execPulseEnd s
  | .takeLine line => Sys2Proof.Machine.execTakeLine line s
  | .preambleEnd line => Sys2Proof.Machine.execPreambleEnd line s
  | .txBreakEnd line => Sys2Proof.Machine.execTxBreakEnd line s
  | .txCharacterEnd line => Sys2Proof.Machine.execTxCharacterEnd line s
  | .echoDeadline line => Sys2Proof.Machine.execEchoDeadline line s
  | .holdEnd line => Sys2Proof.Machine.execHoldEnd line s
  | .frameLengthError samples => Sys2Proof.Machine.execFrameLengthError samples s
  | .frameTimeout => Sys2Proof.Machine.execFrameTimeout s
  | .frameReceived samples => Sys2Proof.Machine.execFrameReceived samples s
  | .frameSent => Sys2Proof.Machine.execFrameSent s
  | .tick => Sys2Proof.Machine.execTick s
  | .lineSample line pin => Sys2Proof.Machine.execLineSample line pin s

end Sys2Proof.Machine
end

