-- ==== Sys2Proof/Safety.lean ====
section
/-! DEFINITION. The words the statements are made in: the request a row carries and when the handler can take it, what a counter report may do, which commands store nothing, and the invariants of the part. -/

namespace Sys2Proof.Machine

/-! ### Requests (R131, R133, R169, R170) -/

/-- The byte that names line, region or timer unit `i`. -/
def quadByte (i : Fin 4) : Byte := BitVec.ofNat 8 i.val

/-- The request a row stands for; none for a row that is no request, and for a TIMER_CONTROL or unknown code row
whose operands belong to another row. -/
def requestOf : Instr → Option Request
  | .ident t p => some ⟨t, 0x01, p⟩
  | .reset t p => some ⟨t, 0x02, p⟩
  | .noticeMask t p => some ⟨t, 0x03, p⟩
  | .unknownCode t c p => if requestCodes.contains c then none else some ⟨t, c, p⟩
  | .lineConfig t p => some ⟨t, 0x10, p⟩
  | .lineStart t p => some ⟨t, 0x11, p⟩
  | .lineStop t p => some ⟨t, 0x12, p⟩
  | .lineReset t p => some ⟨t, 0x13, p⟩
  | .lineStatus t p => some ⟨t, 0x14, p⟩
  | .timeConfig t p => some ⟨t, 0x20, p⟩
  | .timeRead t p => some ⟨t, 0x21, p⟩
  | .inputConfig t p => some ⟨t, 0x22, p⟩
  | .timerConfig t p => some ⟨t, 0x23, p⟩
  | .timerControlStart t p =>
    if timerOperation p = some 1 ∨ timerOperation p = some 2 then none else some ⟨t, 0x24, p⟩
  | .timerControlStop t p => if timerOperation p = some 1 then some ⟨t, 0x24, p⟩ else none
  | .timerControlCapture t p => if timerOperation p = some 2 then some ⟨t, 0x24, p⟩ else none
  | .timerRead t p => some ⟨t, 0x25, p⟩
  | .filterWrite t p => some ⟨t, 0x30, p⟩
  | .filterEnable t p => some ⟨t, 0x31, p⟩
  | .filterRead t p => some ⟨t, 0x32, p⟩
  | .seqLoad t p => some ⟨t, 0x40, p⟩
  | .seqArm t p => some ⟨t, 0x41, p⟩
  | .seqDisarm t p => some ⟨t, 0x42, p⟩
  | .seqForce t p => some ⟨t, 0x43, p⟩
  | .seqStatus t p => some ⟨t, 0x44, p⟩
  | .seqMasks t p => some ⟨t, 0x45, p⟩
  | .flagsWrite t p => some ⟨t, 0x46, p⟩
  | .outputConfig t p => some ⟨t, 0x47, p⟩
  | .regionConfig t p => some ⟨t, 0x50, p⟩
  | .regionStart t p => some ⟨t, 0x51, p⟩
  | .regionStop t p => some ⟨t, 0x52, p⟩
  | .regionClear t p => some ⟨t, 0x53, p⟩
  | .regionStatus t p => some ⟨t, 0x54, p⟩
  | .read t p => some ⟨t, 0x55, p⟩
  | .release t p => some ⟨t, 0x56, p⟩
  | .rewind t p => some ⟨t, 0x57, p⟩
  | .statsRead t p => some ⟨t, 0x60, p⟩
  | .send t p => some ⟨t, 0x70, p⟩
  | .cannedWrite t p => some ⟨t, 0x71, p⟩
  | .txFlush t p => some ⟨t, 0x72, p⟩
  | .txStatus t p => some ⟨t, 0x73, p⟩
  | .powerOn _ _ | .pinReset _ _ | .softReset | .settleEnd _ | .startBitFall _ | .startBitValidation _ _
  | .characterDelivered _ _ | .breakRecognised _ _ | .breakEvent _ | .gapCompletion _ | .counterWrap
  | .inputEdge _ _ | .timerExpiry _ | .eventTaken | .pulseEnd | .takeLine _ | .preambleEnd _ | .txBreakEnd _
  | .txCharacterEnd _ | .echoDeadline _ | .holdEnd _ | .frameLengthError _ | .frameTimeout | .frameReceived _
  | .frameSent | .tick | .lineSample _ _ => none

/-- R133's payload lengths of a code of the table. -/
def admits (code : Byte) (len : Nat) : Bool :=
  if [0x01, 0x02, 0x21, 0x41, 0x42, 0x43, 0x44].contains code then len == 0
  else if [0x03, 0x11, 0x12, 0x13, 0x14, 0x20, 0x25, 0x32, 0x52, 0x53, 0x54, 0x57, 0x72, 0x73].contains code then
    len == 1
  else if [0x24, 0x45, 0x46, 0x60].contains code then len == 2
  else if [0x55, 0x56].contains code then len == 3
  else if [0x47, 0x51].contains code then len == 4
  else if code = 0x22 then len == 5
  else if [0x23, 0x50].contains code then len == 7
  else if code = 0x31 then len == 8
  else if code = 0x30 then len == 15
  else if code = 0x10 then len == 16
  else if code = 0x40 then decide (12 ≤ len ∧ len ≤ 192) && len % 12 == 0
  else if code = 0x70 then decide (5 ≤ len ∧ len ≤ 260)
  else if code = 0x71 then decide (5 ≤ len ∧ len ≤ 69)
  else false

/-- The handler can take the request: it is the oldest in the buffer and not in handling, or the buffer is empty and
the request's frame can still arrive, with no byte in reception; no RESET has been taken (R170, R175, log 5). -/
def canTake (s : State) (req : Request) : Bool :=
  !s.link.resetTaken &&
    match s.link.buffer with
    | [] => s.link.bytes.current.isNone && s.link.rx == .hunt && !s.link.syncHeld && decide (req.payload.length ≤ 1024)
    | b :: _ => !b.inHandling && b.request == req

/-- The state in which the request is in handling. With an empty buffer its good frame has just moved frames_ok. -/
def taken (s : State) (req : Request) : State :=
  match s.link.buffer with
  | [] =>
    { s with
      link := { s.link with bytes := ByteReceiver.ready, buffer := [{ request := req, inHandling := true }] }
      stats := { s.stats with
        link := { s.stats.link with framesOk := satInc Config.count32Max s.stats.link.framesOk } } }
  | b :: rest => { s with link := { s.link with buffer := { b with inHandling := true } :: rest } }

/-- The reply R131 gives a request: its tag, its code with bit 7 set, the status and the content. -/
def replyTo (req : Request) (st : Status) (content : List Byte) : Reply :=
  { tag := req.tag, code := replyCode req.tag req.code, payload := st.code :: content, origin := .handler }

/-- The request taken in state `s1` has left the part in state `after`, and its reply joins the reply list (R171). -/
def answered (s1 after : State) (req : Request) (st : Status) (content : List Byte) : State :=
  placeReply s1 after (replyTo req st content)

/-- The handler takes the request, whose tag is not 0, and `s1` is the part with it in handling. -/
def TakenAs (s : State) (req : Request) (s1 : State) : Prop :=
  req.tag ≠ 0 ∧ canTake s req = true ∧ s1 = taken s req

/-- One byte of capture memory. -/
def State.byteAt (s : State) (a : Nat) : Byte := Memory.readByte s.store.mem a

/-- One word of capture memory. -/
def State.wordAt (s : State) (w : Nat) : Word := Memory.readWord s.store.mem w

/-! ### Frames -/

/-- Commands that store no byte of capture memory, whatever the state: those that offer no record, and not
POWER_ON, after which the memory's contents are unspecified (R97). -/
def storesNothing : Instr → Bool
  | .powerOn _ _ | .lineStop _ _ | .inputConfig _ _ | .timerControlCapture _ _ | .seqForce _ _
  | .characterDelivered _ _ | .breakRecognised _ _ | .breakEvent _ | .gapCompletion _ | .lineSample _ _
  | .counterWrap | .inputEdge _ _ | .timerExpiry _ | .eventTaken | .pulseEnd | .tick => false
  | _ => true

/-- Requests that only read the part. -/
def readsOnly : Instr → Bool
  | .ident _ _ | .lineStatus _ _ | .timeRead _ _ | .timerRead _ _ | .filterRead _ _ | .seqStatus _ _
  | .regionStatus _ _ | .txStatus _ _ => true
  | .statsRead _ p => p.drop 1 != [1]
  | _ => false

/-- Everything but the link controller and the LINK group is the same in both states. -/
def sameButLink (s t : State) : Prop :=
  t.lines = s.lines ∧ t.tb = s.tb ∧ t.pins = s.pins ∧ t.timers = s.timers ∧ t.filters = s.filters ∧
    t.seq = s.seq ∧ t.store = s.store ∧ t.canned = s.canned ∧ t.stats.lines = s.stats.lines ∧
    t.stats.eventsTaken = s.stats.eventsTaken ∧ t.stats.eventsLost = s.stats.eventsLost ∧ t.pending = s.pending

/-- No counter of a LINE group is lower. -/
def LineStats.atMost (a b : LineStats) : Prop :=
  a.chars ≤ b.chars ∧ a.messages ≤ b.messages ∧ a.recorded ≤ b.recorded ∧ a.filtered ≤ b.filtered ∧
    a.lost ≤ b.lost ∧ a.truncated ≤ b.truncated ∧ a.parityChars ≤ b.parityChars ∧
    a.framingChars ≤ b.framingChars ∧ a.noiseChars ≤ b.noiseChars ∧ a.falseStarts ≤ b.falseStarts ∧
    a.breaks ≤ b.breaks ∧ (∀ k : Fin 7, a.buckets[k] ≤ b.buckets[k]) ∧ a.txOk ≤ b.txOk ∧
    a.txCollision ≤ b.txCollision ∧ a.txAborted ≤ b.txAborted ∧ a.txDeferred ≤ b.txDeferred ∧
    a.txRefused ≤ b.txRefused

/-- No counter of a region is lower (R125). -/
def Region.atMost (a b : Region) : Prop :=
  a.written ≤ b.written ∧ a.overwritten ≤ b.overwritten ∧ a.unreadLost ≤ b.unreadLost ∧
    a.refusedMsgs ≤ b.refusedMsgs ∧ a.refusedOther ≤ b.refusedOther

/-- No counter of the LINK group is lower (R143). -/
def LinkStats.atMost (a b : LinkStats) : Prop :=
  a.framesOk ≤ b.framesOk ∧ a.checkErrors ≤ b.checkErrors ∧ a.lengthErrors ≤ b.lengthErrors ∧
    a.timeouts ≤ b.timeouts ∧ a.busyRefusals ≤ b.busyRefusals

/-- No counter of any group is lower in the second state (R137). -/
def countersAtMost (s t : State) : Prop :=
  (∀ i : LineId, (s.lineStats i).atMost (t.lineStats i)) ∧ (∀ e : Fin 32, (s.filter e).hits ≤ (t.filter e).hits) ∧
    (∀ id : RegionId, (s.region id).atMost (t.region id)) ∧ s.stats.eventsTaken ≤ t.stats.eventsTaken ∧
    s.stats.eventsLost ≤ t.stats.eventsLost ∧ s.stats.link.atMost t.stats.link

/-- STATS_READ with clear. -/
def clearsCounters : Instr → Bool
  | .statsRead _ p => p.drop 1 == [1]
  | _ => false

/-! ### Invariants -/

/-- Capture memory keeps its canonical form. -/
def MemoryCanonical (s : State) : Prop := Memory.wf s.store.mem = true

/-- R79, R169: the event queue holds at most 16 events and the request buffer at most 2 requests. -/
def QueuesBounded (s : State) : Prop := s.seq.queue.length ≤ 16 ∧ s.link.buffer.length ≤ 2

/-- R153, R157, section 9.3: the queue holds at most four transmissions and is empty exactly in TX_IDLE; at most two
echoes are awaited, and none outside TX_DATA and TX_HOLD. -/
def TxUnit.Sound (u : TxUnit) : Prop :=
  u.queue.length ≤ 4 ∧ (u.state = .idle ↔ u.queue = []) ∧ u.awaited.length ≤ 2 ∧
    (u.state ≠ .data → u.state ≠ .hold → u.awaited = [])

/-- Every transmit unit is sound. -/
def TxSound (s : State) : Prop := ∀ i : LineId, (s.line i).tx.Sound

/-- R13, R15, R17: the idle measure by state, and the conditions that belong to one state. -/
def Receiver.Sound (r : Receiver) : Prop :=
  r.idle ≤ 255 ∧
    (r.state = .off ∨ r.state = .char ∨ r.state = .breakHold → r.idle = 0) ∧
    (r.state = .settle → r.markRun < 192 ∧ r.idle = r.markRun / 16) ∧
    (r.stopPending = true → r.state = .char) ∧ (r.startPending = true → r.state = .hunt ∧ r.awaitingMark = false) ∧
    (r.awaitingMark = true → r.state = .hunt)

/-- Every receiver is sound. -/
def ReceiverSound (s : State) : Prop := ∀ i : LineId, (s.line i).rx.Sound

/-- R20: the assembler is CLOSED while its receiver is OFF or in SETTLE. -/
def AssemblerClosed (s : State) : Prop :=
  ∀ i : LineId, (s.line i).rx.state = .off ∨ (s.line i).rx.state = .settle → (s.line i).msg = none

/-- R139: messages equals recorded plus filtered plus lost until one of the four saturates. -/
def LineStats.Balanced (g : LineStats) : Prop :=
  g.messages < Config.count32Max → g.recorded < Config.count32Max → g.filtered < Config.count32Max →
    g.lost < Config.count32Max → g.messages = g.recorded + g.filtered + g.lost

/-- R139 for every line. -/
def StatsBalanced (s : State) : Prop := ∀ i : LineId, (s.lineStats i).Balanced

/-- R74, R83, R85: the table breaks no rule and holds at most 16 steps; while ARMED the current step is loaded, its
occurrence counter is below its N, and the link slot is empty or names a loaded step. -/
def SequencerSound (s : State) : Prop :=
  s.seq.table.length ≤ 16 ∧ firstBreak s.seq.table.length 0 s.seq.table = none ∧
    (s.seq.state = .armed →
      (∃ st, s.seq.step? = some st ∧ s.seq.occurrence < st.occurrences) ∧
        ∀ r, s.seq.link = some r → r.val < s.seq.table.length)

/-- R97, R98, R100, R101, R102, R113, R118: a region's placement, its used words, its threshold marker, and what
ARMED and POSTFILL mean for its TRIG record, its quota and its pending counts. -/
def Region.Sound (r : Region) : Prop :=
  (r.state = .disabled ↔ r.size = 0) ∧
    (r.state ≠ .disabled → 2 ≤ r.size ∧ r.base + r.size ≤ 256 ∧ r.head < r.words ∧ r.cursor < r.words ∧
      r.tail < r.words) ∧
    r.used ≤ r.words ∧ (r.crossed = true ↔ r.threshold ≠ 0 ∧ r.threshold ≤ r.used) ∧
    (r.state = .armed → r.hasTrig = false) ∧
    (r.state = .postfill → r.quota ≠ 0 ∧ r.pendMsgs = 0 ∧ r.pendOther = 0)

/-- R97, R99: every region is sound, and two regions that are not DISABLED hold no common block. -/
def RegionsSound (s : State) : Prop :=
  (∀ id : RegionId, (s.region id).Sound) ∧
    ∀ i j : RegionId, i ≠ j → (s.region i).state ≠ .disabled → (s.region j).state ≠ .disabled →
      blocksOverlap (s.region i).base (s.region i).size (s.region j).base (s.region j).size = false

/-- The headers met from a position on carry these sizes, each at least two words (R127). -/
def Region.chain (m : List Host.Cell) (r : Region) : Nat → List Nat → Prop
  | _, [] => True
  | p, z :: t => headerSize (r.headerAt m p) = z ∧ 2 ≤ z ∧ Region.chain m r (r.advance p z) t

/-- R101, R127: the region holds whole records from head to tail, the read ones first; the counts are theirs. -/
def Region.Whole (m : List Host.Cell) (r : Region) : Prop :=
  ∃ read unread : List Nat, r.chain m r.head (read ++ unread) ∧ r.count = (read ++ unread).length ∧
    r.used = (read ++ unread).sum ∧ r.unread = unread.sum ∧ r.cursor = r.advance r.head read.sum ∧
    r.tail = r.advance r.head r.used

/-- R1, R19, R148: settings in their ranges. -/
def LineSettings.InRange (c : LineSettings) : Prop :=
  c.divisor ≤ 4095 ∧ 2 ≤ c.gapThreshold ∧ c.gapThreshold ≤ 255 ∧ 1 ≤ c.maxLength ∧ c.maxLength ≤ 256 ∧
    c.accessGap ≤ 255 ∧ 1 ≤ c.hold ∧ c.hold ≤ 16

/-- Settings in range, and an open message within what a record can hold (R22, R23). -/
def LinesInRange (s : State) : Prop :=
  ∀ i : LineId, (s.line i).cfg.InRange ∧
    ∀ m, (s.line i).msg = some m → m.stored.length ≤ 256 ∧ m.status.length ≤ 8

/-- R101: every region that is not DISABLED is a ring of whole records. -/
def RegionsWhole (s : State) : Prop :=
  RegionsSound s ∧ LinesInRange s ∧
    ∀ id : RegionId, (s.region id).state ≠ .disabled → (s.region id).Whole s.store.mem

/-- R169: at most five busy replies wait, and with five the frame receiver hunts. -/
def BusyBounded (s : State) : Prop :=
  s.link.busyCount ≤ 5 ∧ (s.link.busyCount = 5 → s.link.rx = .hunt)

/-- R172: at most one notice of each kind and index is pending. -/
def NoticesDistinct (s : State) : Prop := (s.link.notices.map (·.kind)).Nodup

/-- An address is a byte of a block that some region not DISABLED occupies (R97). -/
def inSomeRegion (s : State) (a : Nat) : Prop :=
  ∃ id : RegionId, (s.region id).state ≠ .disabled ∧ 256 * (s.region id).base ≤ a ∧
    a < 256 * ((s.region id).base + (s.region id).size)

end Sys2Proof.Machine
end

