-- ==== Sys2Proof/Certificates/Slice0/Obligations.lean ====
section
/-! DEFINITION. The statements for the provers. -/

open Sys2Proof Sys2Proof.Machine

/-! ### The step and the resets -/

/-- A step takes the command at the front of the queue and carries it out on the state with the queue's rest; on an
empty queue the block idles (log 2). -/
def Obligations.StepRunsTheFrontCommand : Prop :=
  (∀ (c : Instr) (rest : List Instr) (s : State), s.pending = c :: rest →
    step s = exec c { s with pending := rest }) ∧
  ∀ s : State, s.pending = [] → step s = .next s

/-- Every value the spec states for reset (R1, R18, R19, R37 to R39, R43, R45, R49, R50, R57, R70, R71, R93, R98,
R126, R137, R148, R151, R163, R165, R172, R173, R176), with the transmit data pins and the link transmit pin at mark. -/
def Obligations.ResetValues : Prop :=
  (∀ i : LineId,
    (State.reset.line i).cfg =
      { divisor := 155, format := .f8N, stopBits := .one, bitOrder := .lsbFirst, sense := .normal, mode := .gap,
        gapThreshold := 30, maxLength := 256, region := 0, defaultAction := .record, txPermitted := false,
        accessGap := 20, hold := 1 } ∧
    (State.reset.line i).rx.state = .off ∧ (State.reset.line i).rx.stopPending = false ∧
    (State.reset.line i).rx.startPending = false ∧ (State.reset.line i).rx.awaitingMark = false ∧
    (State.reset.line i).rx.idle = 0 ∧ (State.reset.line i).msg = none ∧
    (State.reset.line i).tx.state = .idle ∧ (State.reset.line i).tx.queue = [] ∧
    (State.reset.line i).tx.lastOutcome = none ∧ (State.reset.line i).tx.state.driving = false ∧
    ∀ n, State.reset.txPinAt i n = .high) ∧
  State.reset.tb = { tickDiv := 23, counter := 0, epoch := 0 } ∧
  (∀ p : PinId, (State.reset.pin p).func = .off ∧ (State.reset.pin p).edge = .rising ∧
    (State.reset.pin p).flag = 0 ∧ (State.reset.pin p).mask = 0 ∧ (State.reset.pin p).marker = false) ∧
  (∀ u : UnitId, State.reset.timer u =
    { limit := 1, mode := .once, flag := none, mask := 0, state := .idle, count := 0, capture := 0,
      generation := 0 }) ∧
  (∀ e : Fin 32, State.reset.filter e =
    { entry := { enabled := false, lines := 0, first := { value := 0, mask := 0 }, second := none,
                 address := .any, lenMin := 0, lenMax := 0, errorClass := .any, origin := .any, action := .count,
                 flag := none, slice := 0 },
      hits := 0 }) ∧
  State.reset.seq =
    { state := .idle, table := [], current := 0, occurrence := 0, guardGen := 0, flags := 0, link := none,
      queue := [], trigMask := 0, markMask := 0, cause := .none, lastFire := none,
      out := { idleLevel := .low, mode := .pulse, width := 10, held := false, pulse := none } } ∧
  (∀ id : RegionId, (State.reset.region id).state = .disabled ∧ (State.reset.region id).base = 0 ∧
    (State.reset.region id).size = 0 ∧ (State.reset.region id).policy = .roll ∧
    (State.reset.region id).threshold = 0 ∧ (State.reset.region id).head = 0 ∧
    (State.reset.region id).cursor = 0 ∧ (State.reset.region id).tail = 0 ∧ (State.reset.region id).used = 0 ∧
    (State.reset.region id).count = 0 ∧ (State.reset.region id).quota = 0 ∧
    (State.reset.region id).pendMsgs = 0 ∧ (State.reset.region id).pendOther = 0 ∧
    (State.reset.region id).hasTrig = false ∧ (State.reset.region id).short = false ∧
    (State.reset.region id).trigMissing = false ∧ (State.reset.region id).crossed = false) ∧
  (∀ g : StatsGroup, ∀ b ∈ State.reset.groupBytes g, b = 0) ∧
  (∀ c : Fin 8, State.reset.canned[c] = none) ∧
  State.reset.link.rx = .hunt ∧ State.reset.link.buffer = [] ∧ State.reset.link.replies = [] ∧
  State.reset.link.notices = [{ kind := .ready, payload := [0] }] ∧ State.reset.link.mask = 0x7F ∧
  State.reset.link.cause = .power ∧ ∀ n, State.reset.link.pinAt n = .high

/-- Every invariant stated below holds right after reset. -/
def Obligations.InvariantsAtReset : Prop :=
  MemoryCanonical State.reset ∧ QueuesBounded State.reset ∧ TxSound State.reset ∧ ReceiverSound State.reset ∧
  AssemblerClosed State.reset ∧ StatsBalanced State.reset ∧ SequencerSound State.reset ∧
  RegionsSound State.reset ∧ RegionsWhole State.reset ∧ BusyBounded State.reset ∧ NoticesDistinct State.reset

/-- R175, R176: when RESET is taken, sync is held off, a frame in reception is cut off without a count, and the OK
reply after which the soft reset comes joins the reply list; and what the three resets leave. A soft and a pin reset
keep capture memory (R97), a soft reset keeps the link rate. That READY is pending and not begun, and what capture
memory lists after power-on, are the model's choices (log 14, 16). -/
def Obligations.ResetsAreTaken : Prop :=
  (∀ (tag : Byte) (s s1 : State), TakenAs s ⟨tag, 0x02, []⟩ s1 →
    exec (.reset tag []) s =
      .next (placeReply s1 { s1 with link := { s1.link with rx := .hunt, resetTaken := true } }
        { tag := tag, code := 0x82, payload := [0], origin := .resetReply })) ∧
  (∀ (b1 b0 : PinLevel) (s : State), ∃ t, exec (.powerOn b1 b0) s = .next t ∧
    { t with pending := [], free := 0 } =
      { State.reset with link := { State.reset.link with baud1 := b1, baud0 := b0 } }) ∧
  (∀ (b1 b0 : PinLevel) (s : State), ∃ t, exec (.pinReset b1 b0) s = .next t ∧
    { t with pending := [], free := 0 } =
      { State.reset with
        store := { State.reset.store with mem := s.store.mem }
        link := { State.reset.link with
          baud1 := b1, baud0 := b0, cause := .pin, notices := [{ kind := .ready, payload := [1] }] } }) ∧
  ∀ (s : State), s.link.sendingReset = true → ∃ t, exec .softReset s = .next t ∧ exec .frameSent s = .next t ∧
    { t with pending := [], free := 0 } =
      { State.reset with
        store := { State.reset.store with mem := s.store.mem }
        link := { State.reset.link with
          baud1 := s.link.baud1, baud0 := s.link.baud0, cause := .request,
          notices := [{ kind := .ready, payload := [2] }] } }

/-! ### The host link -/

/-- R131, R170, R133: the first judgements. A request with tag 0 is answered TAG, in tag 0 with code 0xFF; a code that
names no request is answered UNKNOWN; a payload length its code does not admit is answered LENGTH. Nothing else
changes. -/
def Obligations.RequestsAreJudged : Prop :=
  (∀ (i : Instr) (req : Request) (s : State), requestOf i = some req → canTake s req = true → req.tag = 0 →
    exec i s = .next (answered (taken s req) (taken s req) req .tag []) ∧
      replyTo req .tag [] = { tag := 0, code := 0xFF, payload := [8], origin := .handler }) ∧
  (∀ (i : Instr) (req : Request) (s s1 : State), requestOf i = some req → TakenAs s req s1 →
    requestCodes.contains req.code = true → admits req.code req.payload.length = false →
    exec i s = .next (answered s1 s1 req .length []) ∧
      replyTo req .length [] = { tag := req.tag, code := req.code ||| 0x80, payload := [3], origin := .handler }) ∧
  ∀ (tag code : Byte) (payload : List Byte) (s s1 : State), requestCodes.contains code = false →
    TakenAs s ⟨tag, code, payload⟩ s1 →
    exec (.unknownCode tag code payload) s = .next (answered s1 s1 ⟨tag, code, payload⟩ .unknown []) ∧
      replyTo ⟨tag, code, payload⟩ .unknown [] =
        { tag := tag, code := code ||| 0x80, payload := [2], origin := .handler }

/-- R165, R169, R171: a reply joins the reply list as the newest, and an idle transmitter sends the oldest reply at once.
When the same request raised a notice at an idle transmitter, either the reply goes first, and the notice stands first
among the pending ones again (in the form of a later one of its kind and index, if the request raised one), or the notice
does and the reply waits (which of the two is a free value: log 9, DESIGN CHOICE). At the end of a frame other than the
RESET reply the transmitter sends the oldest reply, or with none the oldest notice, or waits; a handler's reply that has
been sent frees its request's place. With nothing on the wire FRAME_SENT stands for the transmitter's next chance to
choose so (log 16, DEDUCED), and no place becomes free. On the link transmit pin, where mark is high, the bytes of the frame follow back to back, each a start bit, eight data bits least significant first and a stop
bit; with no frame on the wire the pin stands at mark. -/
def Obligations.RepliesAndNoticesAreSent : Prop :=
  (∀ (s after : State) (r : Reply),
    (after.link.wire = none → after.link.replies = [] →
      placeReply s after r = { after with link := { after.link with wire := some (.reply r) } }) ∧
    (∀ p rest, after.link.wire = none → after.link.replies = p :: rest →
      placeReply s after r =
        { after with link := { after.link with wire := some (.reply p), replies := rest ++ [r] } }) ∧
    (∀ o, after.link.wire = some o → s.link.wire ≠ none ∨ (∃ p, o = .reply p) →
      placeReply s after r = { after with link := { after.link with replies := after.link.replies ++ [r] } }) ∧
    (∀ n, s.link.wire = none → after.link.wire = some (.notice n) →
      placeReply s after r =
          { after with
            link := { after.link with
              wire := some (.reply r)
              notices := (after.link.notices.find? (fun m => m.kind == n.kind)).getD n ::
                after.link.notices.filter (fun m => m.kind != n.kind) }
            free := after.free + 1 } ∨
        placeReply s after r =
          { after with
            link := { after.link with replies := after.link.replies ++ [r] }, free := after.free + 1 })) ∧
  (∀ (s : State) (places : List Buffered), s.link.sendingReset = false →
    places = (match s.link.wire with
      | some (.reply r) => if r.origin = .handler then s.link.buffer.tail else s.link.buffer
      | some (.notice _) | none => s.link.buffer) →
    (∀ r rest, s.link.replies = r :: rest →
      exec .frameSent s =
        .next { s with link := { s.link with buffer := places, wire := some (.reply r), replies := rest } }) ∧
    (∀ n rest, s.link.replies = [] → s.link.notices = n :: rest →
      exec .frameSent s =
        .next { s with link := { s.link with buffer := places, wire := some (.notice n), notices := rest } }) ∧
    (s.link.replies = [] → s.link.notices = [] →
      exec .frameSent s = .next { s with link := { s.link with buffer := places, wire := none } })) ∧
  ∀ k : Link,
    (k.wire = none → ∀ n, k.pinAt n = .high) ∧
    (∀ n, k.bitLevels[n]? = some .mark → k.pinAt n = .high) ∧
    (∀ n, k.bitLevels[n]? = some .space → k.pinAt n = .low) ∧
    (k.sendingReset = true ↔ ∃ r, k.wire = some (.reply r) ∧ r.origin = .resetReply) ∧
    (∀ r, k.wire = some (.reply r) → k.bitLevels = (frameBytes r.tag r.code r.payload).flatMap linkLevels) ∧
    (∀ n, k.wire = some (.notice n) →
      k.bitLevels = (frameBytes 0 (BitVec.ofNat 8 (0xF8 + n.kind.bit)) n.payload).flatMap linkLevels) ∧
    ∀ b : Byte,
      linkLevels b =
        [.space] ++ (List.range 8).map (fun i => if b.getLsbD i then Level.mark else .space) ++ [.mark]

/-- R2, R5, R15, R16, R17, R43, R49, R56, R67, R69, R99, R102 to R104, R119 to R121, R124, R150, R151, R161, R164: a
number above the last line, timer unit, region, filter entry, input pin or canned slot is refused with RANGE, whatever
the state, and nothing changes; and so is a TIMER_CONTROL whose operation names none of START, STOP and CAPTURE (that it
is judged in the START row is the model's choice: log 23). -/
def Obligations.NumberAboveTheLast : Prop :=
  (∀ (b : Byte) (rest : List Byte) (tag : Byte) (s s1 : State), 4 ≤ b.toNat →
    (∀ i ∈ [Instr.lineConfig tag (b :: rest), .lineStart tag (b :: rest), .lineStop tag (b :: rest),
        .lineReset tag (b :: rest), .lineStatus tag (b :: rest), .timerConfig tag (b :: rest),
        .timerControlStart tag (b :: rest), .timerControlStop tag (b :: rest), .timerControlCapture tag (b :: rest),
        .timerRead tag (b :: rest), .regionConfig tag (b :: rest), .regionStart tag (b :: rest),
        .regionStop tag (b :: rest), .regionClear tag (b :: rest), .regionStatus tag (b :: rest),
        .read tag (b :: rest), .release tag (b :: rest), .rewind tag (b :: rest), .send tag (b :: rest),
        .txFlush tag (b :: rest), .txStatus tag (b :: rest)],
      ∀ req, requestOf i = some req → TakenAs s req s1 → admits req.code req.payload.length = true →
        exec i s = .next (answered s1 s1 req .range []))) ∧
  (∀ (b : Byte) (rest : List Byte) (tag : Byte) (s s1 : State), 32 ≤ b.toNat →
    ∀ i ∈ [Instr.filterWrite tag (b :: rest), .filterRead tag (b :: rest)],
      ∀ req, requestOf i = some req → TakenAs s req s1 → admits req.code req.payload.length = true →
        exec i s = .next (answered s1 s1 req .range [])) ∧
  (∀ (b f e fl m tag : Byte) (s s1 : State), 2 ≤ b.toNat → TakenAs s ⟨tag, 0x22, [b, f, e, fl, m]⟩ s1 →
    exec (.inputConfig tag [b, f, e, fl, m]) s = .next (answered s1 s1 ⟨tag, 0x22, [b, f, e, fl, m]⟩ .range [])) ∧
  (∀ (c b pre brk opts tag : Byte) (data : List Byte) (s s1 : State), 8 ≤ c.toNat ∨ 4 ≤ b.toNat →
    data.length ≤ 64 → TakenAs s ⟨tag, 0x71, [c, b, pre, brk, opts] ++ data⟩ s1 →
    exec (.cannedWrite tag ([c, b, pre, brk, opts] ++ data)) s =
      .next (answered s1 s1 ⟨tag, 0x71, [c, b, pre, brk, opts] ++ data⟩ .range [])) ∧
  ∀ (b op tag : Byte) (s s1 : State), 3 ≤ op.toNat → TakenAs s ⟨tag, 0x24, [b, op]⟩ s1 →
    exec (.timerControlStart tag [b, op]) s = .next (answered s1 s1 ⟨tag, 0x24, [b, op]⟩ .range [])

/-- R132, R171 to R173: a notice of a disabled kind is not placed; one of an enabled kind joins as the newest, or replaces
the payload of the pending one of its kind and index in its place (with a frame on the wire). Raised at an idle
transmitter with no reply waiting, it goes on the wire at once, or the oldest pending notice does and it joins as the
newest. NOTICE_MASK replaces the mask and removes the pending notices it disables; bit 7 is refused. The
kinds have the bits of R132. -/
def Obligations.NoticesArePlacedAndMasked : Prop :=
  (∀ k : NoticeKind, k.bit = (match k with
    | .ready => 0 | .trigger => 1 | .frozen _ => 2 | .threshold _ => 3 | .seqFault => 4 | .txEmpty _ => 5
    | .linkFault => 6)) ∧
  (∀ (s : State) (n : Notice) (o : Outgoing), s.link.wire = some o →
    (s.link.mask.getLsbD n.kind.bit = false → s.raise n = s) ∧
    (s.link.mask.getLsbD n.kind.bit = true → (∀ m ∈ s.link.notices, m.kind ≠ n.kind) →
      s.raise n = { s with link := { s.link with notices := s.link.notices ++ [n] } }) ∧
    (s.link.mask.getLsbD n.kind.bit = true → ∀ before m behind, s.link.notices = before ++ m :: behind →
      (∀ x ∈ before, x.kind ≠ n.kind) → m.kind = n.kind →
      s.raise n = { s with link := { s.link with notices := before ++ n :: behind } })) ∧
  (∀ (s : State) (n : Notice), s.link.wire = none → s.link.replies = [] →
    (s.link.mask.getLsbD n.kind.bit = false → s.raise n = s) ∧
    (s.link.mask.getLsbD n.kind.bit = true → s.link.notices = [] →
      s.raise n = { s with link := { s.link with wire := some (.notice n) } }) ∧
    (s.link.mask.getLsbD n.kind.bit = true → ∀ p rest, s.link.notices = p :: rest →
      ((∀ m ∈ s.link.notices, m.kind ≠ n.kind) →
        s.raise n = { s with link := { s.link with wire := some (.notice p), notices := rest ++ [n] } }) ∧
      (p.kind = n.kind →
        s.raise n = { s with link := { s.link with wire := some (.notice n), notices := rest } }))) ∧
  ∀ (tag m : Byte) (s s1 : State), TakenAs s ⟨tag, 0x03, [m]⟩ s1 →
    (m.getLsbD 7 = true →
      exec (.noticeMask tag [m]) s = .next (answered s1 s1 ⟨tag, 0x03, [m]⟩ .range [])) ∧
    (m.getLsbD 7 = false →
      exec (.noticeMask tag [m]) s = .next (answered s1
        { s1 with link := { s1.link with
            mask := m, notices := s1.link.notices.filter (fun n => m.getLsbD n.kind.bit) } }
        ⟨tag, 0x03, [m]⟩ .ok [m]))

/-- R130, R165 to R167, R169: the undisturbed bytes of any frame, sent back to back to a ready byte receiver and a
hunting frame receiver, are the request whose tag, code and payload they carry. It is counted, and joins the buffer when
a place is free; with both places taken it is answered BUSY. A byte receiver without a byte in reception is ready after a
mark sample, and sees a fall only then. A byte's bits are the majorities of samples 7, 8 and 9 of sixteen; a start bit
decided mark gives no byte; a stop bit decided space does not keep the byte back, but no fall is seen before a mark
sample: a long stretch of space gives one byte of 0x00 and nothing more. (That this mark sample must come after sample 16
of the stop bit, so that a stop bit decided space whose sample 16 is at mark still waits for a further one, is the model's
choice: log 6, DESIGN CHOICE.) A hunting frame receiver skips every byte but a sync byte, and that one too while sync is
held off; the bytes after sync are the length, low byte first, then the body. -/
def Obligations.GoodFrameReceived : Prop :=
  (∀ (tag code : Byte) (payload : List Byte) (s : State), payload.length ≤ 1024 →
    s.link.rx = .hunt → s.link.syncHeld = false →
    s.link.bytes = { level := .mark, awaitingMark := false, current := none } →
    (s.link.buffer.length < 2 →
      exec (.frameReceived (linkSamples (frameBytes tag code payload))) s =
        .next { s with
          link := { s.link with buffer := s.link.buffer ++ [⟨⟨tag, code, payload⟩, false⟩] }
          stats := { s.stats with
            link := { s.stats.link with framesOk := satInc 0xFFFFFFFF s.stats.link.framesOk } } }) ∧
    (2 ≤ s.link.buffer.length →
      exec (.frameReceived (linkSamples (frameBytes tag code payload))) s =
        .next { s with
          link := Link.addReply s.link
            { tag := tag, code := if tag = 0 then 0xFF else code ||| 0x80, payload := [1], origin := .busy }
          stats := { s.stats with
            link := { s.stats.link with
              framesOk := satInc 0xFFFFFFFF s.stats.link.framesOk
              busyRefusals := satInc 0xFFFFFFFF s.stats.link.busyRefusals } } })) ∧
  (∀ bytes : List Byte, linkSamples bytes = bytes.flatMap (fun b =>
    List.replicate 16 .low ++
      (List.range 8).flatMap (fun k => List.replicate 16 (if b.getLsbD k then PinLevel.high else .low)) ++
      List.replicate 16 .high)) ∧
  (∀ (tag code : Byte) (payload covered : List Byte),
    covered = bytesOfNat 2 (payload.length + 2) ++ [tag, code] ++ payload →
    frameBytes tag code payload = [0xC3] ++ covered ++ bytesOfNat 2 (frameCheck covered).toNat) ∧
  (frameCheck [] = 0xFFFF ∧ ∀ (bs : List Byte) (b : Byte) (r : Nat → BitVec 16),
    r 0 = frameCheck bs ^^^ (b.zeroExtend 16 <<< 8) →
    (∀ k, r (k + 1) = if (r k).getLsbD 15 then (r k <<< 1) ^^^ 0x1021 else r k <<< 1) →
    frameCheck (bs ++ [b]) = r 8) ∧
  (∀ k : Link, k.syncHeld = true ↔
    k.resetTaken = true ∨ 4 ≤ (k.replies.filter (fun r => decide (r.origin = .busy))).length) ∧
  (∀ (a b : List PinLevel) (s t : State), exec (.frameReceived a) s = .next t →
    exec (.frameReceived (a ++ b)) s = exec (.frameReceived b) t) ∧
  (∀ (s : State) (r : ByteReceiver), r = s.link.bytes → r.current = none →
    exec (.frameReceived [.high]) s =
      .next { s with link := { s.link with bytes := { level := .mark, awaitingMark := false, current := none } } } ∧
    (r.awaitingMark = true ∨ r.level = .space →
      exec (.frameReceived [.low]) s = .next { s with link := { s.link with bytes := { r with level := .space } } }) ∧
    (r.awaitingMark = false → r.level = .mark →
      ∃ c : ByteInReception, c.place = 1 ∧ c.slots = [] ∧ exec (.frameReceived [.low]) s =
        .next { s with link := { s.link with bytes := { r with level := .space, current := some c } } })) ∧
  (∀ (x : Nat → Nat → PinLevel) (bit : Nat → Level) (s : State),
    s.link.bytes = { level := .mark, awaitingMark := false, current := none } → x 0 0 = .low →
    (∀ j, bit j = .mark ↔
      (x j 6 = .high ∧ x j 7 = .high) ∨ (x j 6 = .high ∧ x j 8 = .high) ∨ (x j 7 = .high ∧ x j 8 = .high)) →
    (bit 0 = .mark →
      exec (.frameReceived ((List.range 9).map (x 0))) s =
        .next { s with link := { s.link with
          bytes := { level := if x 0 8 = .high then .mark else .space, awaitingMark := false, current := none } } }) ∧
    (bit 0 = .space → ∀ b : Byte, (∀ k : Fin 8, b.getLsbD k.val = true ↔ bit (k.val + 1) = .mark) →
      exec (.frameReceived ((List.range 10).flatMap (fun j => (List.range 16).map (x j)))) s =
        .next (State.takeByte { s with link := { s.link with
          bytes := { level := if x 9 15 = .high then .mark else .space, awaitingMark := decide (bit 9 = .space)
                     current := none } } } b))) ∧
  (∀ (s : State) (n : Nat), s.link.bytes = { level := .mark, awaitingMark := false, current := none } →
    exec (.frameReceived (List.replicate (160 + n) .low)) s =
      .next (State.takeByte { s with link := { s.link with
        bytes := { level := .space, awaitingMark := true, current := none } } } 0)) ∧
  ∀ (b : Byte) (s : State),
    (s.link.rx = .hunt →
      (b ≠ 0xC3 ∨ s.link.syncHeld = true → s.takeByte b = s) ∧
      (b = 0xC3 → s.link.syncHeld = false → s.takeByte b = { s with link := { s.link with rx := .header } })) ∧
    (s.link.rx = .header → s.takeByte b = { s with link := { s.link with rx := .headerLow b } }) ∧
    (∀ low, s.link.rx = .headerLow low → 2 ≤ natOfBytes [low, b] → natOfBytes [low, b] ≤ 1026 →
      s.takeByte b = { s with link := { s.link with rx := .body low b [] } }) ∧
    ∀ low high got, s.link.rx = .body low high got → got.length + 1 < natOfBytes [low, high] + 2 →
      s.takeByte b = { s with link := { s.link with rx := .body low high (got ++ [b]) } }

/-- R166 to R168: a bad check, a bad length and a gap each discard the frame, move one counter and leave the frame
receiver hunting; a bad check also raises LINKFAULT with the counter. -/
def Obligations.BadFramesDiscarded : Prop :=
  (∀ (b low high : Byte) (got : List Byte) (s : State), s.link.rx = .body low high got →
    s.link.bytes = { level := .mark, awaitingMark := false, current := none } → got.length + 1 = natOfBytes [low, high] + 2 →
    natOfBytes ((got ++ [b]).drop (natOfBytes [low, high])) ≠
      (frameCheck ([low, high] ++ got.take (natOfBytes [low, high]))).toNat →
    exec (.frameReceived (linkSamples [b])) s =
      .next { s with
        link := Link.raise { s.link with rx := .hunt }
          { kind := .linkFault, payload := bytesOfNat 4 (satInc 0xFFFFFFFF s.stats.link.checkErrors) }
        stats := { s.stats with
          link := { s.stats.link with checkErrors := satInc 0xFFFFFFFF s.stats.link.checkErrors } } }) ∧
  (∀ (low high : Byte) (s : State), s.link.rx = .headerLow low →
    s.link.bytes = { level := .mark, awaitingMark := false, current := none } →
    (natOfBytes [low, high] < 2 ∨ 1026 < natOfBytes [low, high]) →
    exec (.frameLengthError (linkSamples [high])) s =
      .next { s with
        link := { s.link with rx := .hunt }
        stats := { s.stats with
          link := { s.stats.link with lengthErrors := satInc 0xFFFFFFFF s.stats.link.lengthErrors } } }) ∧
  ∀ s : State, s.link.rx ≠ .hunt →
    exec .frameTimeout s =
      .next { s with
        link := { s.link with rx := .hunt }
        stats := { s.stats with
          link := { s.stats.link with timeouts := satInc 0xFFFFFFFF s.stats.link.timeouts } } }

/-- R17, R42, R56, R69, R95, R124, R136, R164, R174: the requests that read report the part as it stands, in R136's
codes, and change nothing. In a byte of conditions or flags, bit k is the k-th of those listed, from bit 0. -/
def Obligations.ReadingRequests : Prop :=
  (∀ (l : List Bool) (k : Nat), l.length ≤ 8 → ((byteOfBits l).getLsbD k = true ↔ l[k]? = some true)) ∧
  ((∀ c : ResetCause, c.code = match c with | .power => 0 | .pin => 1 | .request => 2) ∧
    (∀ c : TimerState, c.code = match c with | .idle => 0 | .running => 1 | .expired => 2) ∧
    (∀ c : RxState, c.code = match c with
      | .off => 0 | .settle => 1 | .hunt => 2 | .char => 3 | .breakHold => 4) ∧
    (∀ c : TxState, c.code = match c with
      | .idle => 0 | .wait => 1 | .preamble => 2 | .brk => 3 | .data => 4 | .hold => 5) ∧
    (∀ c : SeqState, c.code = match c with | .idle => 0 | .armed => 1 | .fired => 2 | .fault => 3) ∧
    (∀ c : SeqFaultCause, c.code = match c with | .none => 0 | .eventLoss => 1 | .emptyReturn => 2) ∧
    (∀ c : FireCause, c.code = match c with | .matched => 0 | .elsed => 1 | .forced => 2) ∧
    (∀ c : RegionState, c.code = match c with
      | .disabled => 0 | .stopped => 1 | .run => 2 | .armed => 3 | .postfill => 4 | .frozen => 5) ∧
    ∀ c : Policy, c.code = match c with | .roll => 0 | .stop => 1) ∧
  ((∀ (tag : Byte) (s s1 : State), TakenAs s ⟨tag, 0x01, []⟩ s1 →
    exec (.ident tag []) s = .next (answered s1 s1 ⟨tag, 0x01, []⟩ .ok
      [0x1A, 34, 0x42, 4, 4, 0x00, 0x40, 32, 16, 8, 4, 8, s1.link.cause.code])) ∧
  (∀ (tag : Byte) (s s1 : State), TakenAs s ⟨tag, 0x21, []⟩ s1 →
    exec (.timeRead tag []) s = .next (answered s1 s1 ⟨tag, 0x21, []⟩ .ok
      (bytesOfNat 2 s1.tb.epoch.toNat ++ bytesOfNat 4 s1.tb.counter.toNat))) ∧
  ∀ (tag : Byte) (u : UnitId) (s s1 : State), TakenAs s ⟨tag, 0x25, [quadByte u]⟩ s1 →
    exec (.timerRead tag [quadByte u]) s = .next (answered s1 s1 ⟨tag, 0x25, [quadByte u]⟩ .ok
      ([quadByte u, (s1.timer u).state.code] ++ bytesOfNat 3 (s1.timer u).count ++
        bytesOfNat 3 (s1.timer u).capture ++ [(s1.timer u).generation]))) ∧
  ((∀ (tag : Byte) (i : LineId) (s s1 : State), TakenAs s ⟨tag, 0x14, [quadByte i]⟩ s1 →
    exec (.lineStatus tag [quadByte i]) s = .next (answered s1 s1 ⟨tag, 0x14, [quadByte i]⟩ .ok
      [quadByte i, (s1.line i).rx.state.code,
        byteOfBits [(s1.line i).rx.stopPending, (s1.line i).rx.startPending, (s1.line i).rx.awaitingMark,
          decide ((s1.line i).rx.level = .space)],
        BitVec.ofNat 8 (s1.line i).rx.idle,
        BitVec.ofNat 8 (if (s1.line i).rx.state = .settle then (s1.line i).rx.markRun / 16 else 0)])) ∧
  ∀ (tag : Byte) (i : LineId) (s s1 : State), TakenAs s ⟨tag, 0x73, [quadByte i]⟩ s1 →
    exec (.txStatus tag [quadByte i]) s = .next (answered s1 s1 ⟨tag, 0x73, [quadByte i]⟩ .ok
      [quadByte i, (s1.line i).tx.state.code, BitVec.ofNat 8 (s1.line i).tx.queue.length,
        match (s1.line i).tx.lastOutcome with
        | some .ok => 0
        | some .collision => 1
        | some .aborted => 2
        | none => 3])) ∧
  (∀ (tag : Byte) (e : Fin 32) (s s1 : State), TakenAs s ⟨tag, 0x32, [BitVec.ofNat 8 e.val]⟩ s1 →
    exec (.filterRead tag [BitVec.ofNat 8 e.val]) s =
      .next (answered s1 s1 ⟨tag, 0x32, [BitVec.ofNat 8 e.val]⟩ .ok
        (BitVec.ofNat 8 e.val :: filterEntryBytes (s1.filter e).entry))) ∧
  (∀ (tag : Byte) (s s1 : State), TakenAs s ⟨tag, 0x44, []⟩ s1 →
    exec (.seqStatus tag []) s = .next (answered s1 s1 ⟨tag, 0x44, []⟩ .ok
      ([s1.seq.state.code, BitVec.ofNat 8 s1.seq.table.length, BitVec.ofNat 8 s1.seq.current.val] ++
        bytesOfNat 2 s1.seq.occurrence ++ [s1.seq.guardGen, s1.seq.flags] ++
        [match s1.seq.link with | none => 0xFF | some r => BitVec.ofNat 8 r.val] ++
        [BitVec.ofNat 8 s1.seq.queue.length, s1.seq.cause.code, byteOfBits [s1.seq.out.asserted],
          byteOfBits [s1.seq.lastFire.isSome]] ++
        match s1.seq.lastFire with
        | none => [0, 0, 0, 0, 0, 0, 0]
        | some f => [BitVec.ofNat 8 f.step.val, BitVec.ofNat 8 f.cause.code] ++ bytesOfNat 4 f.time.toNat ++
            [f.tag]))) ∧
  ∀ (tag : Byte) (id : RegionId) (s s1 : State), TakenAs s ⟨tag, 0x54, [quadByte id]⟩ s1 →
    exec (.regionStatus tag [quadByte id]) s = .next (answered s1 s1 ⟨tag, 0x54, [quadByte id]⟩ .ok
      ([quadByte id, (s1.region id).state.code, (s1.region id).policy.code, BitVec.ofNat 8 (s1.region id).base] ++
        [(s1.region id).size, (s1.region id).threshold, (s1.region id).used, (s1.region id).unread,
          (s1.region id).count, (s1.region id).quota, (s1.region id).pendMsgs,
          (s1.region id).pendOther].flatMap (bytesOfNat 2) ++
        [byteOfBits [(s1.region id).hasTrig, (s1.region id).short, (s1.region id).trigMissing,
          (s1.region id).crossed]]))

/-- R144, R136, R137: STATS_READ reports one group as it stands, and with clear sets every counter of that group to 0 in
the same act and no other. The groups have the codes of R137, and their counters stand in R136's order, chars in six bytes
and the others in four, least significant byte first. A counter
counts up to its maximum and stays there. -/
def Obligations.StatsReadAndClear : Prop :=
  (∀ max n : Nat, (n < max → satInc max n = n + 1) ∧ (max ≤ n → satInc max n = n)) ∧
  ((∀ i : LineId, StatsGroup.ofCode (quadByte i) = some (.line i)) ∧ StatsGroup.ofCode 4 = some .filters ∧
    (∀ id : RegionId, StatsGroup.ofCode (5 + quadByte id) = some (.region id)) ∧
    StatsGroup.ofCode 9 = some .seq ∧ StatsGroup.ofCode 10 = some .link ∧
    ∀ b : Byte, 10 < b.toNat → StatsGroup.ofCode b = none) ∧
  (∀ s : State,
    (∀ (i : LineId) (g : LineStats), g = s.lineStats i →
      s.groupBytes (.line i) = bytesOfNat 6 g.chars ++
        [g.messages, g.recorded, g.filtered, g.lost, g.truncated, g.parityChars, g.framingChars, g.noiseChars,
          g.falseStarts, g.breaks, g.buckets[0], g.buckets[1], g.buckets[2], g.buckets[3], g.buckets[4], g.buckets[5],
          g.buckets[6], g.txOk, g.txCollision, g.txAborted, g.txDeferred, g.txRefused].flatMap (bytesOfNat 4)) ∧
    s.groupBytes .filters = (List.finRange 32).flatMap (fun e => bytesOfNat 4 (s.filter e).hits) ∧
    (∀ (id : RegionId) (r : Region), r = s.region id →
      s.groupBytes (.region id) =
        [r.written, r.overwritten, r.unreadLost, r.refusedMsgs, r.refusedOther].flatMap (bytesOfNat 4)) ∧
    s.groupBytes .seq = bytesOfNat 4 s.stats.eventsTaken ++ bytesOfNat 4 s.stats.eventsLost ∧
    s.groupBytes .link =
      [s.stats.link.framesOk, s.stats.link.checkErrors, s.stats.link.lengthErrors, s.stats.link.timeouts,
        s.stats.link.busyRefusals].flatMap (bytesOfNat 4)) ∧
  (∀ n v : Nat, (bytesOfNat n v).length = n ∧
    ∀ (k : Nat) (b : Byte), (bytesOfNat n v)[k]? = some b → b.toNat = v / 256 ^ k % 256) ∧
  ∀ (tag g c : Byte) (s s1 : State), TakenAs s ⟨tag, 0x60, [g, c]⟩ s1 →
    (10 < g.toNat ∨ 1 < c.toNat →
      exec (.statsRead tag [g, c]) s = .next (answered s1 s1 ⟨tag, 0x60, [g, c]⟩ .range [])) ∧
    ∀ group, StatsGroup.ofCode g = some group →
      (c = 0 → exec (.statsRead tag [g, c]) s =
        .next (answered s1 s1 ⟨tag, 0x60, [g, c]⟩ .ok (g :: s1.groupBytes group))) ∧
      (c = 1 → ∃ t, exec (.statsRead tag [g, c]) s =
          .next (answered s1 t ⟨tag, 0x60, [g, c]⟩ .ok (g :: s1.groupBytes group)) ∧
        (∀ b ∈ t.groupBytes group, b = 0) ∧
        (∀ other, other ≠ group → t.groupBytes other = s1.groupBytes other) ∧
        t.lines = s1.lines ∧ t.tb = s1.tb ∧ t.pins = s1.pins ∧ t.timers = s1.timers ∧ t.seq = s1.seq ∧
        t.store.mem = s1.store.mem ∧ t.canned = s1.canned ∧ t.link = s1.link ∧
        (∀ id : RegionId, (t.region id).clearCounters = (s1.region id).clearCounters) ∧
        ∀ e : Fin 32, (t.filter e).entry = (s1.filter e).entry)

/-! ### The lines: requests -/

/-- R2, R5: LINE_CONFIG replaces every setting the line's three blocks hold, at once, while the receiver is OFF; it is
refused with STATE in any other receiver state, and after that with RANGE when a value is out of range. LINE_START
puts an OFF receiver in SETTLE, with nothing counted, and is refused with STATE otherwise. (That the line level then
stands at mark until the first sample is the model's choice: log 27, DESIGN CHOICE.) -/
def Obligations.LineConfigAndStart : Prop :=
  (∀ (tag : Byte) (i : LineId) (bytes : List Byte) (s s1 : State), bytes.length = 15 →
    TakenAs s ⟨tag, 0x10, quadByte i :: bytes⟩ s1 →
    ((s1.line i).rx.state ≠ .off →
      exec (.lineConfig tag (quadByte i :: bytes)) s =
        .next (answered s1 s1 ⟨tag, 0x10, quadByte i :: bytes⟩ .state [])) ∧
    ((s1.line i).rx.state = .off → parseLineSettings bytes = none →
      exec (.lineConfig tag (quadByte i :: bytes)) s =
        .next (answered s1 s1 ⟨tag, 0x10, quadByte i :: bytes⟩ .range [])) ∧
    ∀ c : LineSettings, (s1.line i).rx.state = .off → parseLineSettings bytes = some c →
      exec (.lineConfig tag (quadByte i :: bytes)) s =
        .next (answered s1 (s1.setCfg i c) ⟨tag, 0x10, quadByte i :: bytes⟩ .ok [])) ∧
  ∀ (tag : Byte) (i : LineId) (s s1 : State), TakenAs s ⟨tag, 0x11, [quadByte i]⟩ s1 →
    ((s1.line i).rx.state ≠ .off →
      exec (.lineStart tag [quadByte i]) s =
        .next (answered s1 s1 ⟨tag, 0x11, [quadByte i]⟩ .state [])) ∧
    ((s1.line i).rx.state = .off →
      exec (.lineStart tag [quadByte i]) s =
        .next (answered s1 (s1.setRx i { Receiver.off with state := .settle })
          ⟨tag, 0x11, [quadByte i]⟩ .ok []))

/-- R1, R2, R19, R133 to R135, R148: the payload layouts lose no bit. Settings in range, a filter entry FILTER_WRITE can
write and a step record SEQ_LOAD can load read back as they are from their bytes; which bits of the bytes each field is
read from; and settings with a value out of range are none. -/
def Obligations.PayloadsReadBack : Prop :=
  (∀ (d0 d1 fmt stop order sense mode gap m0 m1 region dflt permit access hold : Byte) (bytes : List Byte),
    bytes = [d0, d1, fmt, stop, order, sense, mode, gap, m0, m1, region, dflt, permit, access, hold] →
    (parseLineSettings bytes = none ↔
      4095 < natOfBytes [d0, d1] ∨ 3 < fmt.toNat ∨ stop.toNat = 0 ∨ 2 < stop.toNat ∨ 1 < order.toNat ∨
        1 < sense.toNat ∨ 2 < mode.toNat ∨ gap.toNat < 2 ∨ natOfBytes [m0, m1] = 0 ∨ 256 < natOfBytes [m0, m1] ∨
        3 < region.toNat ∨ 1 < dflt.toNat ∨ 1 < permit.toNat ∨ hold.toNat = 0 ∨ 16 < hold.toNat) ∧
    ∀ c, parseLineSettings bytes = some c →
      c.divisor = natOfBytes [d0, d1] ∧
      fmt.toNat = (match c.format with | .f8N => 0 | .f8E => 1 | .f8O => 2 | .f8A => 3) ∧
      stop.toNat = (match c.stopBits with | .one => 1 | .two => 2) ∧
      order.toNat = (match c.bitOrder with | .lsbFirst => 0 | .msbFirst => 1) ∧
      sense.toNat = (match c.sense with | .normal => 0 | .inverted => 1) ∧
      mode.toNat = (match c.mode with | .gap => 0 | .address => 1 | .addressGap => 2) ∧
      c.gapThreshold = gap.toNat ∧ c.maxLength = natOfBytes [m0, m1] ∧ c.region.val = region.toNat ∧
      dflt.toNat = (match c.defaultAction with | .record => 0 | .drop => 1) ∧
      permit.toNat = (if c.txPermitted then 1 else 0) ∧ c.accessGap = access.toNat ∧ c.hold = hold.toNat) ∧
  (∀ (b0 lines fv fm sv sm codes flag n0 n1 x0 x1 s0 s1 : Byte) (e : FilterEntry),
    parseFilterEntry [b0, lines, fv, fm, sv, sm, codes, flag, n0, n1, x0, x1, s0, s1] = some e →
    e.enabled = b0.getLsbD 0 ∧ e.lines.toNat = lines.toNat ∧ e.first = { value := fv, mask := fm } ∧
    e.second = (if b0.getLsbD 1 then some { value := sv, mask := sm } else none) ∧
    codes.toNat % 4 = (match e.address with | .any => 0 | .startOnly => 1 | .notStart => 2) ∧
    codes.toNat / 4 % 4 = (match e.errorClass with | .any => 0 | .clean => 1 | .errored => 2) ∧
    codes.toNat / 16 % 4 = (match e.origin with | .any => 0 | .ownOnly => 1 | .foreignOnly => 2) ∧
    codes.toNat / 64 = (match e.action with | .record => 0 | .drop => 1 | .count => 2) ∧
    flag.toNat = (match e.flag with | none => 255 | some f => f.val) ∧
    e.lenMin = natOfBytes [n0, n1] ∧ e.lenMax = natOfBytes [x0, x1] ∧ e.slice = natOfBytes [s0, s1]) ∧
  (∀ (mask opts n0 n1 guard exit els action operand z0 z1 z2 : Byte) (st : StepRecord),
    parseStep [mask, opts, n0, n1, guard, exit, els, action, operand, z0, z1, z2] = some st →
    st.mask = mask ∧ (st.sense = .all ↔ opts.getLsbD 0 = true) ∧ st.consume = opts.getLsbD 1 ∧
    opts.toNat / 4 % 4 = (match st.timing with | .each => 0 | .exit => 1 | .onElse => 2) ∧
    st.occurrences = natOfBytes [n0, n1] ∧ guard.toNat = (match st.guard with | none => 255 | some u => u.val) ∧
    (st.matchKind = .call ↔ exit.getLsbD 7 = true) ∧
    exit.toNat % 128 = (match st.matchTarget with | .step j => j.val | .fire => 0x40 | .ret => 0x41) ∧
    (st.guard = none → st.elseTarget = none) ∧
    (st.guard ≠ none → ∃ x, st.elseTarget = some x ∧
      els.toNat % 128 = (match x with | .step j => j.val | .fire => 0x40 | .ret => 0x41)) ∧
    match st.action with
    | .none => action = 0
    | .startTimer u => action = 1 ∧ operand.toNat = u.val
    | .stopTimer u => action = 2 ∧ operand.toNat = u.val
    | .captureTimer u => action = 3 ∧ operand.toNat = u.val
    | .setFlag f => action = 4 ∧ operand.toNat = f.val
    | .clearFlag f => action = 5 ∧ operand.toNat = f.val
    | .mark v => action = 6 ∧ operand = v
    | .pulse => action = 7
    | .send c => action = 8 ∧ operand.toNat = c.val) ∧
  (∀ c : LineSettings, c.InRange → parseLineSettings (lineSettingsBytes c) = some c) ∧
  (∀ e : FilterEntry, 1 ≤ e.lenMin → e.lenMin ≤ e.lenMax → e.lenMax ≤ 65535 → e.slice ≤ 256 →
    parseFilterEntry (filterEntryBytes e) = some e) ∧
  ∀ st : StepRecord, st.occurrences ≤ 65535 → (st.elseTarget.isSome ↔ st.guard.isSome) →
    parseStep (stepBytes st) = some st

/-- R15, R35, R162: LINE_STOP. Refused with STATE in OFF; without effect while a stop is pending; otherwise the
transmit unit is flushed and the receiver goes OFF, stays in CHAR with a stop pending, or hands on a cut break. Where
the order of the two parts matters it is free (log 11). -/
def Obligations.LineStopStops : Prop :=
  (∀ (tag : Byte) (i : LineId) (s s1 : State), TakenAs s ⟨tag, 0x12, [quadByte i]⟩ s1 →
    ((s1.line i).rx.state = .off →
      exec (.lineStop tag [quadByte i]) s =
        .next (answered s1 s1 ⟨tag, 0x12, [quadByte i]⟩ .state [])) ∧
    ((s1.line i).rx.state ≠ .off → (s1.line i).rx.stopPending = true →
      exec (.lineStop tag [quadByte i]) s =
        .next (answered s1 s1 ⟨tag, 0x12, [quadByte i]⟩ .ok [])) ∧
    ((s1.line i).rx.state ≠ .off → (s1.line i).rx.stopPending = false → ∃ t,
      exec (.lineStop tag [quadByte i]) s =
        .next (answered s1 t ⟨tag, 0x12, [quadByte i]⟩ .ok []) ∧
      (t = stopReceiver (flushTx s1 i) i ∨ t = stopReceiver (flushTx s1.useFree i) i ∨
        t = flushTx (stopReceiver s1.useFree i) i))) ∧
  ∀ (i : LineId) (u : State),
    ((u.line i).rx.state = .settle ∨ (u.line i).rx.state = .hunt →
      stopReceiver u i = completeOpen (u.setRx i Receiver.off) i .stop) ∧
    ((u.line i).rx.state = .char →
      stopReceiver u i = u.setRx i { (u.line i).rx with stopPending := true }) ∧
    ((u.line i).rx.state = .breakHold →
      stopReceiver u i =
        completeOpen (((deliverBreak u i
          { startTime := (u.line i).rx.startTime, startTag := (u.line i).rx.startTag,
            duration := (u.line i).rx.tickCount, echo := (u.line i).rx.echo, cut := true }).report i
              LineStats.breakSeen).setRx i Receiver.off) i .stop ∧
      ((u.line i).tx.judging = false →
        stopReceiver u i =
          completeOpen (((assembleBreak u i ((u.line i).rx.breakInfo true)).report i LineStats.breakSeen).setRx i
            Receiver.off) i .stop))

/-- R36, and with it R16 and R163: LINE_RESET discards the character, break, message and transmissions in flight
without a record, a count or a notice: nothing outside the line changes, and of the line its settings and last outcome
stay. -/
def Obligations.LineResetDiscards : Prop :=
  ∀ (tag : Byte) (i : LineId) (s s1 : State), TakenAs s ⟨tag, 0x13, [quadByte i]⟩ s1 →
    exec (.lineReset tag [quadByte i]) s =
      .next (answered s1
        (s1.setLine i { s1.line i with
          rx := Receiver.off, msg := none
          tx := if (s1.line i).tx.state = .data then
              { (s1.line i).tx with queue := (s1.line i).tx.queue.take 1, awaited := [], cut := .reset }
            else
              { (s1.line i).tx with
                state := .idle, queue := [], onPin := none, sent := 0, awaited := [], collided := false,
                cut := .none } })
        ⟨tag, 0x13, [quadByte i]⟩ .ok [])

/-! ### The lines: samples -/

/-- R3, R5, R12, R13: line samples. None is taken in OFF. In SETTLE a mark sample lengthens the mark run, a space sample
sets it and the measure to 0, and the mark sample that completes 192 in a row enters HUNT with the measure at 12. In HUNT
sixteen mark samples add one to the idle measure up to 255, and a space sample that is no fall leaves it; with a message
open the measure rises so too where that completes nothing (R26). In BREAK_HOLD a space sample sets the mark run to 0.
(That the first mark sample after awaiting mark counts is the model's reading: log 17.) LINE_SAMPLE is the sample of
every kind, so it does what the row named after a sample does at that sample (log 3). -/
def Obligations.SamplesMoveTheIdleMeasure : Prop :=
  (∀ (i : LineId) (s : State), (s.line i).rx.state = .settle → (s.line i).rx.markRun = 191 →
    exec (.settleEnd i) s =
      .next (s.setRx i { (s.line i).rx with
        state := .hunt, level := .mark, markRun := 0, idle := 12, idleSamples := 0, startPending := false,
        awaitingMark := false })) ∧
  (∀ (i : LineId) (pin : PinLevel) (s : State),
    ((s.line i).rx.state = .off → exec (.lineSample i pin) s = .next s) ∧
    ((s.line i).rx.state = .settle → (s.line i).cfg.sense.apply pin = .space →
      exec (.lineSample i pin) s =
        .next (s.setRx i { (s.line i).rx with level := .space, markRun := 0, idle := 0 })) ∧
    ((s.line i).rx.state = .settle → (s.line i).cfg.sense.apply pin = .mark → (s.line i).rx.markRun < 191 →
      exec (.lineSample i pin) s =
        .next (s.setRx i { (s.line i).rx with
          level := .mark, markRun := (s.line i).rx.markRun + 1, idle := ((s.line i).rx.markRun + 1) / 16 })) ∧
    ((s.line i).rx.state = .hunt → (s.line i).rx.startPending = false → (s.line i).cfg.sense.apply pin = .mark →
      (s.line i).rx.idleSamples < 15 →
      exec (.lineSample i pin) s =
        .next (s.setRx i { (s.line i).rx with
          level := .mark, awaitingMark := false, idleSamples := (s.line i).rx.idleSamples + 1 })) ∧
    ((s.line i).rx.state = .hunt → (s.line i).rx.startPending = false → (s.line i).cfg.sense.apply pin = .mark →
      (s.line i).rx.idleSamples = 15 → (s.line i).rx.idle < 255 →
      (s.line i).msg = none ∨ (s.line i).cfg.mode = .address ∨
        (s.line i).rx.idle + 1 ≠ (s.line i).cfg.gapThreshold →
      exec (.lineSample i pin) s =
        .next (s.setRx i { (s.line i).rx with
          level := .mark, awaitingMark := false, idleSamples := 0, idle := (s.line i).rx.idle + 1 })) ∧
    ((s.line i).rx.state = .hunt → (s.line i).rx.startPending = false → (s.line i).cfg.sense.apply pin = .mark →
      (s.line i).rx.idleSamples = 15 → (s.line i).rx.idle = 255 →
      exec (.lineSample i pin) s =
        .next (s.setRx i { (s.line i).rx with level := .mark, awaitingMark := false, idleSamples := 0 })) ∧
    ((s.line i).rx.state = .hunt → (s.line i).rx.startPending = false → (s.line i).cfg.sense.apply pin = .space →
      (s.line i).rx.awaitingMark = true ∨ (s.line i).rx.level = .space →
      exec (.lineSample i pin) s = .next (s.setRx i { (s.line i).rx with level := .space })) ∧
    ((s.line i).rx.state = .breakHold → (s.line i).cfg.sense.apply pin = .space →
      exec (.lineSample i pin) s = .next (s.setRx i { (s.line i).rx with level := .space, markRun := 0 })) ∧
    ((s.line i).rx.state = .breakHold → (s.line i).cfg.sense.apply pin = .mark → (s.line i).rx.markRun < 7 →
      exec (.lineSample i pin) s =
        .next (s.setRx i { (s.line i).rx with level := .mark, markRun := (s.line i).rx.markRun + 1 }))) ∧
  ∀ (i : LineId) (pin : PinLevel) (s : State),
    ((s.line i).cfg.sense.apply pin = .mark →
      ((s.line i).rx.state = .settle → (s.line i).rx.markRun = 191 →
        exec (.lineSample i pin) s = exec (.settleEnd i) s) ∧
      ((s.line i).rx.state = .breakHold → (s.line i).rx.markRun = 7 →
        exec (.lineSample i pin) s = exec (.breakEvent i) s) ∧
      ((s.line i).rx.state = .hunt → (s.line i).rx.startPending = false → (s.line i).rx.idleSamples = 15 →
        (s.line i).rx.idle < 255 → (s.line i).rx.idle + 1 = (s.line i).cfg.gapThreshold →
        (s.line i).cfg.mode ≠ .address → (s.line i).msg ≠ none →
        exec (.lineSample i pin) s = exec (.gapCompletion i) s)) ∧
    ((s.line i).cfg.sense.apply pin = .space → (s.line i).rx.state = .hunt → (s.line i).rx.startPending = false →
      (s.line i).rx.awaitingMark = false → (s.line i).rx.level = .mark →
      exec (.lineSample i pin) s = exec (.startBitFall i) s) ∧
    ((s.line i).rx.state = .hunt → (s.line i).rx.startPending = true → (s.line i).rx.frameSamples = 8 →
      exec (.lineSample i pin) s = exec (.startBitValidation i pin) s) ∧
    ((s.line i).rx.state = .char → (s.line i).rx.frameSamples = 16 * lastStopSlot (s.line i).cfg + 15 →
      exec (.lineSample i pin) s = exec (.characterDelivered i pin) s) ∧
    ((s.line i).rx.state = .char → (s.line i).rx.frameSamples = 16 * firstStopSlot (s.line i).cfg + 8 →
      (∀ x ∈ (s.line i).rx.slots, x = .space) →
      majority ⟨(s.line i).rx.vote7, (s.line i).rx.vote8, (s.line i).cfg.sense.apply pin⟩ = .space →
      exec (.lineSample i pin) s = exec (.breakRecognised i pin) s)

/-- R6, R11, R14, R154, R159: a fall in HUNT marks a start bit pending. A transmission in its preamble gives way and
is counted; a turnaround hold ends at the fall, OK with no echo outstanding, and otherwise in COLLISION with a report
that sets COLL on an open message; any other unit is untouched. Samples 2 to 8 of the start bit are only kept. Sample 9
with a space majority validates it: the receiver enters CHAR, the idle measure is 0, and the character is dated B
ticks back, or at 0 when fewer than B ticks have passed since 0. A mark majority is a false start, counted, and the
receiver stays in HUNT. -/
def Obligations.StartBitsAreFoundAndDecided : Prop :=
  (∀ (i : LineId) (s t : State), (s.line i).rx.state = .hunt → (s.line i).rx.startPending = false →
    (s.line i).rx.awaitingMark = false → (s.line i).rx.level = .mark →
    t = s.setRx i { (s.line i).rx with level := .space, startPending := true, frameSamples := 1 } →
    ((s.line i).tx.state ≠ .preamble → (s.line i).tx.state ≠ .hold → exec (.startBitFall i) s = .next t) ∧
    ((s.line i).tx.state = .preamble →
      exec (.startBitFall i) s =
        .next ((t.setTx i { (s.line i).tx with state := .wait }).setLineStats i
          { s.lineStats i with txDeferred := satInc 0xFFFFFFFF (s.lineStats i).txDeferred })) ∧
    ((s.line i).tx.state = .hold → (s.line i).tx.awaited = [] →
      exec (.startBitFall i) s = .next (t.endTx i .ok)) ∧
    ((s.line i).tx.state = .hold → (s.line i).tx.awaited ≠ [] →
      exec (.startBitFall i) s =
        .next ((t.setLine i { t.line i with
          msg := (s.line i).msg.map (fun m => { m with flags := { m.flags with coll := true } })
          tx := { (s.line i).tx with collided := true, awaited := [] } }).endTx i .collision))) ∧
  (∀ (i : LineId) (pin : PinLevel) (s : State) (l : Level) (n : Nat),
    (s.line i).rx.state = .hunt → (s.line i).rx.startPending = true → n = (s.line i).rx.frameSamples + 1 → n < 9 →
    l = (s.line i).cfg.sense.apply pin →
    exec (.lineSample i pin) s =
      .next (s.setRx i { (s.line i).rx with
        level := l, frameSamples := n, vote7 := if n = 7 then l else (s.line i).rx.vote7,
        vote8 := if n = 8 then l else (s.line i).rx.vote8 })) ∧
  ∀ (i : LineId) (pin : PinLevel) (s : State) (l : Level) (v : Votes) (b : Nat),
    (s.line i).rx.state = .hunt → (s.line i).rx.startPending = true → (s.line i).rx.frameSamples = 8 →
    l = (s.line i).cfg.sense.apply pin → v = ⟨(s.line i).rx.vote7, (s.line i).rx.vote8, l⟩ →
    b = 8 * ((s.line i).cfg.divisor + 1) / (s.tb.tickDiv.toNat + 1) →
    (majority v = .space →
      exec (.startBitValidation i pin) s =
        .next (s.setRx i { (s.line i).rx with
          state := .char, level := l, startPending := false, frameSamples := 9, idle := 0, idleSamples := 0,
          slots := [], noise := !(v.s7 == v.s8 && v.s8 == v.s9),
          startTime := if s.tb.counter.toNat < b then 0 else s.tb.counter - BitVec.ofNat 32 b,
          startTag := s.tb.epoch.extractLsb' 0 8, echo := (s.line i).tx.state.driving, tickCount := b })) ∧
    (majority v = .mark →
      exec (.startBitValidation i pin) s =
        .next ((s.setRx i { (s.line i).rx with level := l, startPending := false, frameSamples := 0 }).setLineStats i
          { s.lineStats i with falseStarts := satInc 0xFFFFFFFF (s.lineStats i).falseStarts }))

/-- R1, R4, R7 to R10, R138: samples of a character. The first stop bit's slot is slot 9, or 10 in a format with a ninth
bit; the last is that one or, with two stop bits, the next. Samples 7 and 8 of a slot are kept, and sample 9 of slot 1 to the first
stop bit decides it by majority and sets NOISE when the three differ; the slots give the data byte in bit order, the
address flag, PARITY and FRAMING. At the last sample of the last stop bit the receiver enters HUNT, awaiting mark when
the sample is at space; the character is delivered, to the assembler alone where the transmit unit does not judge, and
is counted with its status; under a stop pending the receiver then goes OFF and the open message completes with STOP
(R15). -/
def Obligations.CharacterIsDelivered : Prop :=
  (∀ (i : LineId) (pin : PinLevel) (s t : State) (l : Level) (ch : Character),
    (s.line i).rx.state = .char → (s.line i).rx.frameSamples = 16 * lastStopSlot (s.line i).cfg + 15 →
    l = (s.line i).cfg.sense.apply pin →
    ch = { data := dataOfSlots (s.line i).cfg.bitOrder (s.line i).rx.slots
           addr := addressFlag (s.line i).cfg.format (s.line i).rx.slots
           parity := parityFails (s.line i).cfg.format (s.line i).rx.slots
           framing := framingFails (s.line i).rx.slots, noise := (s.line i).rx.noise
           startTime := (s.line i).rx.startTime, startTag := (s.line i).rx.startTag, echo := (s.line i).rx.echo
           ticks := (s.line i).rx.tickCount } →
    t = (deliverCharacter (s.setRx i { (s.line i).rx with
          state := .hunt, level := l, idle := 0, idleSamples := 0, markRun := 0, frameSamples := 0,
          startPending := false, awaitingMark := decide (l = .space) }) i ch).report i (fun g => g.character ch) →
    ((s.line i).rx.stopPending = false → exec (.characterDelivered i pin) s = .next t) ∧
    ((s.line i).rx.stopPending = true →
      exec (.characterDelivered i pin) s = .next (completeOpen (t.setRx i Receiver.off) i .stop))) ∧
  (∀ (s : State) (i : LineId) (ch : Character), (s.line i).tx.judging = false →
    deliverCharacter s i ch = assembleCharacter s i ch) ∧
  (∀ (g : LineStats) (ch : Character), g.character ch = { g with
    chars := satInc 0xFFFFFFFFFFFF g.chars
    parityChars := if ch.parity then satInc 0xFFFFFFFF g.parityChars else g.parityChars
    framingChars := if ch.framing then satInc 0xFFFFFFFF g.framingChars else g.framingChars
    noiseChars := if ch.noise then satInc 0xFFFFFFFF g.noiseChars else g.noiseChars }) ∧
  (∀ (i : LineId) (pin : PinLevel) (s : State) (l : Level) (v : Votes) (slot place : Nat) (r decided : Receiver),
    (s.line i).rx.state = .char → l = (s.line i).cfg.sense.apply pin → slot = (s.line i).rx.frameSamples / 16 →
    place = (s.line i).rx.frameSamples % 16 + 1 → v = ⟨(s.line i).rx.vote7, (s.line i).rx.vote8, l⟩ →
    r = { (s.line i).rx with
      level := l, frameSamples := (s.line i).rx.frameSamples + 1
      vote7 := if place = 7 then l else (s.line i).rx.vote7
      vote8 := if place = 8 then l else (s.line i).rx.vote8 } →
    decided = { r with
      slots := (s.line i).rx.slots ++ [majority v]
      noise := (s.line i).rx.noise || !(v.s7 == v.s8 && v.s8 == v.s9) } →
    (place ≠ 9 ∨ slot = 0 ∨ firstStopSlot (s.line i).cfg < slot → place ≠ 16 ∨ slot < lastStopSlot (s.line i).cfg →
      exec (.lineSample i pin) s = .next (s.setRx i r)) ∧
    (place = 9 → 1 ≤ slot → slot ≤ firstStopSlot (s.line i).cfg →
      slot ≠ firstStopSlot (s.line i).cfg ∨ (∃ x ∈ decided.slots, x = .mark) →
      exec (.lineSample i pin) s = .next (s.setRx i decided))) ∧
  (∀ v : Votes, majority v = .mark ↔
    (v.s7 = .mark ∧ v.s8 = .mark) ∨ (v.s7 = .mark ∧ v.s9 = .mark) ∨ (v.s8 = .mark ∧ v.s9 = .mark)) ∧
  (∀ c : LineSettings,
    firstStopSlot c = (match c.format with | .f8N => 9 | .f8E => 10 | .f8O => 10 | .f8A => 10) ∧
    lastStopSlot c = firstStopSlot c + (match c.stopBits with | .one => 0 | .two => 1) ∧
    charTime c = lastStopSlot c + 1) ∧
  ∀ slots : List Level,
    (8 ≤ slots.length → ∀ k : Fin 8,
      ((dataOfSlots .lsbFirst slots).getLsbD k.val = true ↔ slots[k.val]? = some .mark) ∧
      ((dataOfSlots .msbFirst slots).getLsbD k.val = true ↔ slots[7 - k.val]? = some .mark)) ∧
    (∀ f, addressFlag f slots = true ↔ f = .f8A ∧ slots[8]? = some .mark) ∧
    (∀ f, parityFails f slots = true ↔
      (f = .f8E ∧ (slots.take 9).count .mark % 2 = 1) ∨ (f = .f8O ∧ (slots.take 9).count .mark % 2 = 0)) ∧
    (framingFails slots = true ↔ slots.getLast? = some .space)

/-- R157, R158: a delivered character is judged against the oldest awaited echo while the unit judges. A good one
leaves the list and nothing else; one that is not good, or one with none awaited, is a collision, found before or
after the character reaches the assembler (which of the two is free: log 8). A collision found empties the list, ends
the judging and sets COLL on an open message, and in TX_HOLD the transmission ends with it at once. -/
def Obligations.EchoIsJudged : Prop :=
  (∀ (i : LineId) (s : State) (ch : Character), (s.line i).tx.judging = true →
    (∀ e rest, (s.line i).tx.awaited = e :: rest → ch.data = e.data → ch.parity = false → ch.framing = false →
      ((s.line i).cfg.format = .f8A → e.ninth = some (if ch.addr then .mark else .space)) →
      deliverCharacter s i ch = assembleCharacter (s.setTx i { (s.line i).tx with awaited := rest }) i ch) ∧
    ((s.line i).tx.awaited = [] ∨
      (∃ e rest, (s.line i).tx.awaited = e :: rest ∧
        (ch.data ≠ e.data ∨ ch.parity = true ∨ ch.framing = true ∨
          ((s.line i).cfg.format = .f8A ∧ e.ninth ≠ some (if ch.addr then .mark else .space)))) →
      deliverCharacter s i ch = assembleCharacter (foundCollision s.useFree i) i ch ∨
        deliverCharacter s i ch = foundCollision (assembleCharacter s.useFree i ch) i)) ∧
  (∀ u : TxUnit, u.judging = true ↔
    (u.state = .data ∨ u.state = .hold) ∧ u.collided = false ∧ u.cut = .none) ∧
  ∀ (i : LineId) (s c : State),
    c = s.setLine i { s.line i with
      msg := (s.line i).msg.map (fun m => { m with flags := { m.flags with coll := true } })
      tx := { (s.line i).tx with collided := true, awaited := [] } } →
    ((s.line i).tx.state ≠ .hold → foundCollision s i = c) ∧
    ((s.line i).tx.state = .hold → foundCollision s i = c.endTx i .collision)

/-- R9, R12, R15, R27, R34, R138, R157: sample 9 of the first stop bit with every slot decided space is a break:
BREAK_HOLD at once, and no character. Under a stop pending the cut break event is delivered, the receiver goes OFF and
the stop completes what is open. The eighth mark sample in a row ends a break: the event is delivered, the break is
counted and the receiver is in HUNT. A break event completes the open message with BREAK and its BRK record is offered
to the line's region; delivered to a unit that judges, in TX_DATA or TX_HOLD, it is also a collision, found before or
after (log 8). -/
def Obligations.BreaksAreDelivered : Prop :=
  (∀ (i : LineId) (pin : PinLevel) (s t : State) (l : Level) (v : Votes),
    (s.line i).rx.state = .char → (s.line i).rx.frameSamples = 16 * firstStopSlot (s.line i).cfg + 8 →
    (∀ x ∈ (s.line i).rx.slots, x = .space) → l = (s.line i).cfg.sense.apply pin →
    v = ⟨(s.line i).rx.vote7, (s.line i).rx.vote8, l⟩ → majority v = .space →
    t = s.setRx i { (s.line i).rx with
      state := .breakHold, level := l, markRun := 0, frameSamples := 0, slots := (s.line i).rx.slots ++ [.space],
      noise := (s.line i).rx.noise || !unanimous v } →
    ((s.line i).rx.stopPending = false → exec (.breakRecognised i pin) s = .next t) ∧
    ((s.line i).rx.stopPending = true →
      exec (.breakRecognised i pin) s =
        .next (completeOpen (((deliverBreak t i
          { startTime := (s.line i).rx.startTime, startTag := (s.line i).rx.startTag,
            duration := (s.line i).rx.tickCount, echo := (s.line i).rx.echo, cut := true }).report i
              LineStats.breakSeen).setRx i Receiver.off) i .stop))) ∧
  (∀ (i : LineId) (s t : State), (s.line i).rx.state = .breakHold → (s.line i).rx.markRun = 7 →
    t = s.setRx i { (s.line i).rx with
      state := .hunt, level := .mark, idle := 0, idleSamples := 0, markRun := 0, frameSamples := 0,
      startPending := false, awaitingMark := false } →
    exec (.breakEvent i) s =
      .next ((deliverBreak t i
        { startTime := (s.line i).rx.startTime, startTag := (s.line i).rx.startTag,
          duration := (s.line i).rx.tickCount, echo := (s.line i).rx.echo, cut := false }).report i
            LineStats.breakSeen)) ∧
  (∀ g : LineStats, g.breakSeen = { g with breaks := satInc 0xFFFFFFFF g.breaks }) ∧
  ∀ (i : LineId) (s u : State) (b : BreakInfo),
    u = (match (s.line i).msg with
      | none => s
      | some m => completeMessage s i .brk m) →
    assembleBreak s i b = u.offer (s.line i).cfg.region (brkRecord i b) ∧
    ((s.line i).tx.judging = false → deliverBreak s i b = assembleBreak s i b) ∧
    ((s.line i).tx.judging = true →
      deliverBreak s i b = assembleBreak (foundCollision s.useFree i) i b ∨
        deliverBreak s i b = foundCollision (assembleBreak s.useFree i b) i)

/-! ### Messages -/

/-- R13, R26, R29 to R33, R35, R61, R139, R140: in GAP and ADDRESS_GAP modes the open message completes with GAP at the
mark sample at which the idle measure rises to the gap threshold. A stop completes the open message with its cause, and
does nothing where none is open. A completion: hits counted, then the record offered on RECORD, then one outcome reported,
then a non-empty flag set sent as an event, and the assembler is CLOSED. The properties handed over are those of R29;
the report moves messages, exactly one outcome counter, one size bucket, and truncated on TRUNC (R139, R140). -/
def Obligations.CompletionIsWhole : Prop :=
  (∀ (i : LineId) (s : State) (m : Message), (s.line i).rx.state = .hunt → (s.line i).rx.startPending = false →
    (s.line i).rx.idleSamples = 15 → (s.line i).rx.idle + 1 = (s.line i).cfg.gapThreshold →
    (s.line i).cfg.gapThreshold ≤ 255 → (s.line i).cfg.mode ≠ .address → (s.line i).msg = some m →
    exec (.gapCompletion i) s =
      .next (completeMessage (s.setRx i { (s.line i).rx with
        level := .mark, awaitingMark := false, idleSamples := 0, idle := (s.line i).cfg.gapThreshold }) i .gap m)) ∧
  (∀ (s : State) (i : LineId) (cause : EndCause),
    ((s.line i).msg = none → completeOpen s i cause = s) ∧
    ∀ m, (s.line i).msg = some m → completeOpen s i cause = completeMessage s i cause m) ∧
  (∀ (i : LineId) (m : Message), m.props i =
    { line := i, received := m.received, first := m.lead0, second := m.lead1, addrStart := m.flags.addrStart
      errored := m.flags.par || m.flags.frm || m.flags.noi || m.flags.trunc, own := m.flags.own }) ∧
  (∀ (g : LineStats) (x : MsgOutcome) (n : Nat) (trunc : Bool) (b : Fin 7),
    (b = 0 ∧ n = 1) ∨ (b = 1 ∧ 2 ≤ n ∧ n ≤ 3) ∨ (b = 2 ∧ 4 ≤ n ∧ n ≤ 7) ∨ (b = 3 ∧ 8 ≤ n ∧ n ≤ 15) ∨
      (b = 4 ∧ 16 ≤ n ∧ n ≤ 63) ∨ (b = 5 ∧ 64 ≤ n ∧ n ≤ 255) ∨ (b = 6 ∧ 256 ≤ n) →
    g.completion x n trunc = { g with
      messages := satInc 0xFFFFFFFF g.messages
      recorded := if x = .recorded then satInc 0xFFFFFFFF g.recorded else g.recorded
      filtered := if x = .filtered then satInc 0xFFFFFFFF g.filtered else g.filtered
      lost := if x = .lost then satInc 0xFFFFFFFF g.lost else g.lost
      truncated := if trunc then satInc 0xFFFFFFFF g.truncated else g.truncated
      buckets := g.buckets.set b (satInc 0xFFFFFFFF g.buckets[b]) }) ∧
  ∀ (s : State) (i : LineId) (cause : EndCause) (m : Message) (a : FilterAnswer) (h o r : State) (x : MsgOutcome),
    a = filterAnswer (m.props i) (s.line i).cfg.defaultAction s.filters.toList →
    h = { s with filters := s.filters.map (Filter.count (m.props i)) } →
    (a.decision = .drop → o = h ∧ x = .filtered) →
    (a.decision = .record → o = h.offer (s.line i).cfg.region (msgRecord i cause m a.index a.slice) ∧
      x = if h.offerRecorded (s.line i).cfg.region (msgRecord i cause m a.index a.slice) then .recorded
        else .lost) →
    r = o.setLineStats i ((s.lineStats i).completion x m.received m.flags.trunc) →
    (a.flags = 0 → completeMessage s i cause m = r.setMsg i none) ∧
    (a.flags ≠ 0 → completeMessage s i cause m = (r.joinQueue (.message i a.flags)).setMsg i none) ∧
    (a.flags ≠ 0 → s.seq.queue.length < 16 →
      completeMessage s i cause m =
        ({ r with seq := { r.seq with queue := r.seq.queue ++ [SeqEvent.message i a.flags] } }).setMsg i none)

/-- R21 to R25: a character joins the open message or opens one, with the opening flags of R21, and outside GAP mode in
format 8A an address character first completes the open one; and what adding does to each item of the message: the
status list takes an entry for each of PARITY, FRAMING, NOISE and ADDRESS that applies, in that order and at the
character's position, up to 8 entries and position 255, and STATOVF says that one was lost. -/
def Obligations.CharacterJoinsItsMessage : Prop :=
  (∀ (s : State) (i : LineId) (ch : Character),
    ((s.line i).msg = none →
      assembleCharacter s i ch =
        s.setMsg i (some (Message.add (s.line i).cfg (openMessage (s.line i).cfg ch) ch))) ∧
    (∀ m, (s.line i).msg = some m →
      ((s.line i).cfg.mode = .gap ∨ (s.line i).cfg.format ≠ .f8A ∨ ch.addr = false →
        assembleCharacter s i ch = s.setMsg i (some (Message.add (s.line i).cfg m ch))) ∧
      ((s.line i).cfg.mode ≠ .gap → (s.line i).cfg.format = .f8A → ch.addr = true →
        assembleCharacter s i ch =
          (completeMessage s i .address m).setMsg i
            (some (Message.add (s.line i).cfg (openMessage (s.line i).cfg ch) ch))))) ∧
  (∀ (c : LineSettings) (o : Message) (ch : Character), o = openMessage c ch →
    o.startTime = ch.startTime ∧ o.startTag = ch.startTag ∧ o.ticks = ch.ticks ∧ o.received = 0 ∧ o.stored = [] ∧
    o.lead1 = none ∧ o.status = [] ∧
    o.flags = { par := false, frm := false, noi := false, trunc := false, own := ch.echo, coll := false,
                addrStart := ch.addr, orphan := decide (c.mode ≠ .gap ∧ c.format = .f8A ∧ ch.addr = false),
                statOvf := false }) ∧
  ∀ (c : LineSettings) (m n : Message) (ch : Character) (kinds : List StatusKind), n = Message.add c m ch →
    kinds = (if ch.parity = true then [.parity] else []) ++ (if ch.framing = true then [.framing] else []) ++
      (if ch.noise = true then [.noise] else []) ++
      (if c.mode = .gap ∧ ch.addr = true ∧ m.received ≠ 0 then [.address] else []) →
    n.startTime = m.startTime ∧ n.startTag = m.startTag ∧ n.ticks = m.ticks ∧ n.lastEnd = m.ticks ∧
    n.received = satInc 65535 m.received ∧
    (m.received = 0 → n.lead0 = ch.data) ∧ (m.received ≠ 0 → n.lead0 = m.lead0) ∧
    (m.received = 1 → n.lead1 = some ch.data) ∧ (m.received ≠ 1 → n.lead1 = m.lead1) ∧
    (m.stored.length < c.maxLength → n.stored = m.stored ++ [ch.data] ∧ n.flags.trunc = m.flags.trunc) ∧
    (c.maxLength ≤ m.stored.length → n.stored = m.stored ∧ n.flags.trunc = true) ∧
    n.flags.par = (m.flags.par || ch.parity) ∧ n.flags.frm = (m.flags.frm || ch.framing) ∧
    n.flags.noi = (m.flags.noi || ch.noise) ∧ n.flags.own = m.flags.own ∧
    n.flags.addrStart = m.flags.addrStart ∧ n.flags.orphan = m.flags.orphan ∧
    (m.received = 0 → n.flags.coll = m.flags.coll) ∧
    (1 ≤ m.received → n.flags.coll = (m.flags.coll || (ch.echo != m.flags.own))) ∧
    n.status.length ≤ max 8 m.status.length ∧ m.status <+: n.status ∧
    (m.received ≤ 255 →
      n.status = m.status ++
        (kinds.take (8 - m.status.length)).map (fun k => { position := m.received, kind := k }) ∧
      (n.flags.statOvf = true ↔ m.flags.statOvf = true ∨ 8 - m.status.length < kinds.length)) ∧
    (255 < m.received →
      n.status = m.status ∧ (n.flags.statOvf = true ↔ m.flags.statOvf = true ∨ kinds ≠ []))

/-! ### Time base, event inputs, timer units -/

/-- R12, R21, R38, R39, R54, R93: one tick. The counter advances, or at 0xFFFFFFFF becomes 0 with the epoch one higher
and an EPOCH record of cause WRAP offered to every region (before the timer events: log 12, DESIGN CHOICE); the tick counts of characters and breaks in reception (that
a character's counts from its validation on is log 24, DEDUCED) and of open messages, the timer units and the pulse
advance; then the timer events of the units that expire join the queue, in an order the spec leaves open (log 10). The
rows for a wrap, an expiry and a pulse's end are that tick (log 3, DEDUCED). -/
def Obligations.TickAdvances : Prop :=
  (∀ s : State, s.expiries = [] →
    (s.tb.counter ≠ 0xFFFFFFFF →
      exec .tick s = .next { s with
        tb := { s.tb with counter := s.tb.counter + 1 }
        lines := s.lines.map Line.tick, timers := s.timers.map TimerUnit.tick
        seq := { s.seq with out := s.seq.out.tick } }) ∧
    (s.tb.counter = 0xFFFFFFFF → ∀ w : State,
      w = State.offerSet { s with tb := { s.tb with counter := 0, epoch := s.tb.epoch + 1 } } 0xF
        (epochRecord (s.tb.epoch + 1) none) →
      exec .counterWrap s = exec .tick s ∧
      exec .counterWrap s = .next { w with
        lines := s.lines.map Line.tick, timers := s.timers.map TimerUnit.tick
        seq := { s.seq with out := s.seq.out.tick } })) ∧
  (∀ (s : State) (u : UnitId), s.tb.counter ≠ 0xFFFFFFFF → (s.timer u).expiring = true →
    (∀ v, v ≠ u → (s.timer v).expiring = false) → s.seq.queue.length < 16 →
    exec (.timerExpiry u) s = exec .tick s ∧
    exec (.timerExpiry u) s = .next { s with
      tb := { s.tb with counter := s.tb.counter + 1 }
      lines := s.lines.map Line.tick, timers := s.timers.map TimerUnit.tick
      seq := { s.seq with
        out := s.seq.out.tick
        queue := s.seq.queue ++ [.timer u (s.timer u).flag (s.timer u).generation] }
      free := s.free + 1 }) ∧
  (∀ s : State, s.seq.out.pulse = some 1 → ∃ t, exec .pulseEnd s = .next t ∧ exec .tick s = .next t ∧
    t.seq.out = { s.seq.out with pulse := none }) ∧
  (∀ s w : State,
    (s.tb.counter ≠ 0xFFFFFFFF → w = { s with tb := { s.tb with counter := s.tb.counter + 1 } }) →
    (s.tb.counter = 0xFFFFFFFF →
      w = State.offerSet { s with tb := { s.tb with counter := 0, epoch := s.tb.epoch + 1 } } 0xF
        (epochRecord (s.tb.epoch + 1) none)) →
    (∃ arrivals : List SeqEvent, arrivals.Perm s.expiries ∧
      exec .tick s = .next (State.joinAll { w with
        lines := s.lines.map Line.tick, timers := s.timers.map TimerUnit.tick
        seq := { s.seq with out := s.seq.out.tick }, free := s.free + s.expiries.length } arrivals)) ∧
    s.expiries = (([0, 1, 2, 3] : List UnitId).filter (fun u => (s.timer u).expiring)).map
      (fun u => .timer u (s.timer u).flag (s.timer u).generation) ∧
    (∀ u, (s.timer u).expiring = true → exec (.timerExpiry u) s = exec .tick s) ∧
    (s.tb.counter = 0xFFFFFFFF → exec .counterWrap s = exec .tick s)) ∧
  (∀ s : State, s.joinAll [] = s ∧ ∀ e rest, s.joinAll (e :: rest) = (s.joinQueue e).joinAll rest) ∧
  (∀ l : Line, l.tick = { l with
    rx := if l.rx.state = .char ∨ l.rx.state = .breakHold then
        { l.rx with tickCount := satInc 0xFFFFFF l.rx.tickCount }
      else l.rx
    msg := l.msg.map (fun m => { m with ticks := satInc 0xFFFFFF m.ticks }) }) ∧
  (∀ o : TrigOut, (o.pulse = none → o.tick = o) ∧
    ∀ n, o.pulse = some n → (n ≤ 1 → o.tick = { o with pulse := none }) ∧
      (1 < n → o.tick = { o with pulse := some (n - 1) })) ∧
  ∀ t : TimerUnit,
    (t.expiring = true ↔ t.state = .running ∧ t.limit ≤ t.count + 1) ∧
    (t.state ≠ .running → t.tick = t) ∧
    (t.state = .running → t.count + 1 < t.limit → t.tick = { t with count := t.count + 1 }) ∧
    (t.state = .running → t.limit ≤ t.count + 1 →
      (t.mode = .once → t.tick = { t with count := t.limit, state := .expired }) ∧
      (t.mode = .repeating → t.tick = { t with count := 0 }))

/-- R41, R49: TIME_CONFIG is accepted when every line is OFF and every timer unit is IDLE, and refused with STATE
otherwise. TIMER_CONFIG replaces the four settings of an IDLE unit and leaves its state, count, capture slot and
generation; it is refused with STATE in RUNNING and EXPIRED, and after that with RANGE. -/
def Obligations.TimeAndTimerConfig : Prop :=
  (∀ (tag d : Byte) (s s1 : State), TakenAs s ⟨tag, 0x20, [d]⟩ s1 →
    ((∀ i : LineId, (s1.line i).rx.state = .off) → (∀ u : UnitId, (s1.timer u).state = .idle) →
      exec (.timeConfig tag [d]) s =
        .next (answered s1 { s1 with tb := { s1.tb with tickDiv := d } } ⟨tag, 0x20, [d]⟩ .ok [])) ∧
    ((∃ i : LineId, (s1.line i).rx.state ≠ .off) ∨ (∃ u : UnitId, (s1.timer u).state ≠ .idle) →
      exec (.timeConfig tag [d]) s = .next (answered s1 s1 ⟨tag, 0x20, [d]⟩ .state []))) ∧
  ∀ (tag : Byte) (u : UnitId) (l0 l1 l2 mb fb kb : Byte) (s s1 : State),
    TakenAs s ⟨tag, 0x23, [quadByte u, l0, l1, l2, mb, fb, kb]⟩ s1 →
    ((s1.timer u).state ≠ .idle →
      exec (.timerConfig tag [quadByte u, l0, l1, l2, mb, fb, kb]) s =
        .next (answered s1 s1 ⟨tag, 0x23, [quadByte u, l0, l1, l2, mb, fb, kb]⟩ .state [])) ∧
    ((s1.timer u).state = .idle →
      natOfBytes [l0, l1, l2] = 0 ∨ 1 < mb.toNat ∨ (8 ≤ fb.toNat ∧ fb ≠ 0xFF) ∨ 16 ≤ kb.toNat →
      exec (.timerConfig tag [quadByte u, l0, l1, l2, mb, fb, kb]) s =
        .next (answered s1 s1 ⟨tag, 0x23, [quadByte u, l0, l1, l2, mb, fb, kb]⟩ .range [])) ∧
    ∀ (m : TimerMode) (f : Option FlagId) (k : QuadSet), (s1.timer u).state = .idle →
      natOfBytes [l0, l1, l2] ≠ 0 → mb = (match m with | .once => 0 | .repeating => 1) →
      fb = byteOfFlagOpt f → kb.toNat = k.toNat →
      exec (.timerConfig tag [quadByte u, l0, l1, l2, mb, fb, kb]) s =
        .next (answered s1
          (s1.setTimer u { s1.timer u with limit := natOfBytes [l0, l1, l2], mode := m, flag := f, mask := k })
          ⟨tag, 0x23, [quadByte u, l0, l1, l2, mb, fb, kb]⟩ .ok [])

/-- R43 to R48, R133: INPUT_CONFIG replaces a pin's four settings; the first change from OFF sets the first-enable marker, and
takes a rising edge when the pin stands high and rising edges are valid. A value out of range changes nothing. The codes
of R133 are 0 OFF, 1 SYNC_CAPTURE, 2 SYNC_RESTART, 3 FLAG, and 0 RISING, 1 FALLING, 2 BOTH. What an edge does: valid by the pin's edge setting, outside OFF, it acts by the pin's function. -/
def Obligations.InputConfigReplacesSettings : Prop :=
  (∀ (b : Byte) (f : PinFunction), PinFunction.ofCode b = some f ↔
    b = match f with | .off => 0 | .syncCapture => 1 | .syncRestart => 2 | .flag => 3) ∧
  (∀ (b : Byte) (e : EdgeSelect), EdgeSelect.ofCode b = some e ↔
    b = match e with | .rising => 0 | .falling => 1 | .both => 2) ∧
  (∀ (p : InputPin) (e : Edge), p.valid e = true ↔
    p.func ≠ .off ∧ (p.edge = .both ∨ (p.edge = .rising ∧ e = .rising) ∨ (p.edge = .falling ∧ e = .falling))) ∧
  (∀ (s : State) (p : PinId) (e : Edge),
    ((s.pin p).valid e = false → s.takeEdge p e = s) ∧
    ((s.pin p).valid e = true →
      ((s.pin p).func = .syncCapture →
        s.takeEdge p e =
          s.offerSet (s.pin p).mask (syncRecord p e s.tb.counter (s.tb.epoch.extractLsb' 0 8))) ∧
      ((s.pin p).func = .syncRestart →
        s.takeEdge p e =
          State.offerSet { s with tb := { s.tb with counter := 0, epoch := s.tb.epoch + 1 } } 0xF
            (epochRecord (s.tb.epoch + 1) (some p))) ∧
      ((s.pin p).func = .flag → s.takeEdge p e = s.joinQueue (.input p (s.pin p).flag)))) ∧
  ∀ (tag : Byte) (p : PinId) (fb eb flb mb : Byte) (s s1 : State),
    TakenAs s ⟨tag, 0x22, [BitVec.ofNat 8 p.val, fb, eb, flb, mb]⟩ s1 →
    (PinFunction.ofCode fb = none ∨ EdgeSelect.ofCode eb = none ∨ 8 ≤ flb.toNat ∨ 16 ≤ mb.toNat →
      exec (.inputConfig tag [BitVec.ofNat 8 p.val, fb, eb, flb, mb]) s =
        .next (answered s1 s1 ⟨tag, 0x22, [BitVec.ofNat 8 p.val, fb, eb, flb, mb]⟩ .range [])) ∧
    ∀ (f : PinFunction) (e : EdgeSelect) (fl : FlagId) (m : QuadSet) (c : State),
      PinFunction.ofCode fb = some f → EdgeSelect.ofCode eb = some e → flb.toNat = fl.val → mb.toNat = m.toNat →
      c = s1.setPin p { s1.pin p with
        func := f, edge := e, flag := fl, mask := m
        marker := (s1.pin p).marker || (decide ((s1.pin p).func = .off) && decide (f ≠ .off)) } →
      ((s1.pin p).func = .off → f ≠ .off → (s1.pin p).marker = false → e ≠ .falling →
          (s1.pin p).accepted = some .high →
        exec (.inputConfig tag [BitVec.ofNat 8 p.val, fb, eb, flb, mb]) s =
          .next (answered s1 (c.takeEdge p .rising) ⟨tag, 0x22, [BitVec.ofNat 8 p.val, fb, eb, flb, mb]⟩ .ok [])) ∧
      ((s1.pin p).func ≠ .off ∨ f = .off ∨ (s1.pin p).marker = true ∨ e = .falling ∨
          (s1.pin p).accepted ≠ some .high →
        exec (.inputConfig tag [BitVec.ofNat 8 p.val, fb, eb, flb, mb]) s =
          .next (answered s1 c ⟨tag, 0x22, [BitVec.ofNat 8 p.val, fb, eb, flb, mb]⟩ .ok []))

/-- R44, R46 to R48: the first sample after a reset sets the accepted level; a single opposite sample changes it not, and a sample at the accepted level ends a run of opposite ones;
two in a row do, a rising edge when they are high and a falling one when they are low, and a valid edge then acts by the pin's function: the event of a FLAG pin arrives at the queue, where a
full one loses it (R79; EventIsTaken). -/
def Obligations.InputEdgeActs : Prop :=
  (edgeTo .high = .rising ∧ edgeTo .low = .falling) ∧
  (∀ (p : PinId) (a b : List PinLevel) (s t : State), exec (.inputEdge p a) s = .next t →
    exec (.inputEdge p (a ++ b)) s = exec (.inputEdge p b) t) ∧
  (∀ (p : PinId) (a : PinLevel) (s : State), (s.pin p).accepted = some a →
    exec (.inputEdge p [a]) s = .next (s.setPin p { s.pin p with opposite := false })) ∧
  ∀ (p : PinId) (l : PinLevel) (s t : State),
    t = s.setPin p { s.pin p with accepted := some l, opposite := false } →
    ((s.pin p).accepted = none → exec (.inputEdge p [l]) s = .next t) ∧
    (∀ a, (s.pin p).accepted = some a → a ≠ l → (s.pin p).opposite = false →
      exec (.inputEdge p [l]) s = .next (s.setPin p { s.pin p with opposite := true }) ∧
      ((s.pin p).valid (edgeTo l) = false → exec (.inputEdge p [l, l]) s = .next t) ∧
      ((s.pin p).valid (edgeTo l) = true → (s.pin p).func = .syncCapture →
        exec (.inputEdge p [l, l]) s =
          .next (t.offerSet (s.pin p).mask (syncRecord p (edgeTo l) s.tb.counter s.epochTag))) ∧
      ((s.pin p).valid (edgeTo l) = true → (s.pin p).func = .syncRestart →
        exec (.inputEdge p [l, l]) s =
          .next (State.offerSet { t with tb := { s.tb with counter := 0, epoch := s.tb.epoch + 1 } } 0xF
            (epochRecord (s.tb.epoch + 1) (some p)))) ∧
      ((s.pin p).valid (edgeTo l) = true → (s.pin p).func = .flag →
        exec (.inputEdge p [l, l]) s = .next (t.joinQueue (.input p (s.pin p).flag))) ∧
      ((s.pin p).valid (edgeTo l) = true → (s.pin p).func = .flag → s.seq.queue.length < 16 →
        exec (.inputEdge p [l, l]) s =
          .next { t with seq := { s.seq with queue := s.seq.queue ++ [.input p (s.pin p).flag] } }))

/-- R51, R52: a start and a stop, in every state. -/
def Obligations.TimerStartAndStop : Prop :=
  (∀ (tag : Byte) (u : UnitId) (s s1 : State), TakenAs s ⟨tag, 0x24, [quadByte u, 0]⟩ s1 →
    exec (.timerControlStart tag [quadByte u, 0]) s =
      .next (answered s1
        (s1.setTimer u { s1.timer u with
          count := 0, generation := (s1.timer u).generation + 1, state := .running })
        ⟨tag, 0x24, [quadByte u, 0]⟩ .ok [])) ∧
  ∀ (tag : Byte) (u : UnitId) (s s1 : State), TakenAs s ⟨tag, 0x24, [quadByte u, 1]⟩ s1 →
    exec (.timerControlStop tag [quadByte u, 1]) s =
      .next (answered s1 (s1.setTimer u { s1.timer u with state := .idle }) ⟨tag, 0x24, [quadByte u, 1]⟩ .ok [])

/-- R53: a capture, in every state: the count goes to the capture slot, and a MEAS record with the captured count and
the time of the capture is offered to the unit's mask. -/
def Obligations.TimerCapture : Prop :=
  ∀ (tag : Byte) (u : UnitId) (s s1 : State), TakenAs s ⟨tag, 0x24, [quadByte u, 2]⟩ s1 →
    exec (.timerControlCapture tag [quadByte u, 2]) s =
      .next (answered s1
        ((s1.setTimer u { s1.timer u with capture := (s1.timer u).count }).offerSet (s1.timer u).mask
          (measRecord u (s1.timer u).count s1.tb.counter (s1.tb.epoch.extractLsb' 0 8)))
        ⟨tag, 0x24, [quadByte u, 2]⟩ .ok [])

/-! ### Filter table -/

/-- R67, R68: FILTER_WRITE replaces every field of a disabled entry and is refused with STATE for an enabled one, then
with RANGE; FILTER_ENABLE changes the enabled fields alone, by one act, and replies the enabled set; hit counters
stay. Which values of the fourteen bytes are out of range. -/
def Obligations.FilterWriteAndEnable : Prop :=
  (∀ (table : Vector Filter 32) (e : Fin 32),
    (enabledMask table.toList).testBit e.val = table[e].entry.enabled) ∧
  (∀ b0 lines fv fm sv sm codes flag n0 n1 x0 x1 s0 s1 : Byte,
    parseFilterEntry [b0, lines, fv, fm, sv, sm, codes, flag, n0, n1, x0, x1, s0, s1] = none ↔
      16 ≤ lines.toNat ∨ codes.toNat % 4 = 3 ∨ codes.toNat / 4 % 4 = 3 ∨ codes.toNat / 16 % 4 = 3 ∨
        codes.toNat / 64 = 3 ∨ (8 ≤ flag.toNat ∧ flag ≠ 0xFF) ∨ natOfBytes [n0, n1] = 0 ∨ natOfBytes [x0, x1] = 0 ∨
        natOfBytes [x0, x1] < natOfBytes [n0, n1] ∨ 256 < natOfBytes [s0, s1]) ∧
  (∀ (tag : Byte) (e : Fin 32) (bytes : List Byte) (s s1 : State), bytes.length = 14 →
    TakenAs s ⟨tag, 0x30, BitVec.ofNat 8 e.val :: bytes⟩ s1 →
    ((s1.filter e).entry.enabled = true →
      exec (.filterWrite tag (BitVec.ofNat 8 e.val :: bytes)) s =
        .next (answered s1 s1 ⟨tag, 0x30, BitVec.ofNat 8 e.val :: bytes⟩ .state [])) ∧
    ((s1.filter e).entry.enabled = false → parseFilterEntry bytes = none →
      exec (.filterWrite tag (BitVec.ofNat 8 e.val :: bytes)) s =
        .next (answered s1 s1 ⟨tag, 0x30, BitVec.ofNat 8 e.val :: bytes⟩ .range [])) ∧
    ∀ entry, (s1.filter e).entry.enabled = false → parseFilterEntry bytes = some entry →
      exec (.filterWrite tag (BitVec.ofNat 8 e.val :: bytes)) s =
        .next (answered s1 (s1.setFilter e { entry := entry, hits := (s1.filter e).hits })
          ⟨tag, 0x30, BitVec.ofNat 8 e.val :: bytes⟩ .ok [])) ∧
  ∀ (tag : Byte) (en dis : BitVec 32) (s s1 : State) (p : List Byte),
    p = bytesOfNat 4 en.toNat ++ bytesOfNat 4 dis.toNat → TakenAs s ⟨tag, 0x31, p⟩ s1 →
    (en &&& dis ≠ 0 → exec (.filterEnable tag p) s = .next (answered s1 s1 ⟨tag, 0x31, p⟩ .range [])) ∧
    (en &&& dis = 0 → ∃ table : Vector Filter 32,
      exec (.filterEnable tag p) s =
        .next (answered s1 { s1 with filters := table } ⟨tag, 0x31, p⟩ .ok
          (bytesOfNat 4 (enabledMask table.toList))) ∧
      ∀ e : Fin 32, table[e] = { s1.filter e with
        entry := { (s1.filter e).entry with
          enabled := ((s1.filter e).entry.enabled || en.getLsbD e.val) && !dis.getLsbD e.val } })

/-- R58 to R65: an entry matches exactly when it is enabled, the line is in its mask and each of its tests passes.
Every matching entry counts one hit; the flag set is the union of the matching entries' flags; the lowest matching
entry whose action is not COUNT decides, with its slice when it records, and with none the line's default action does,
with no slice. -/
def Obligations.FilterMatchesAndDecides : Prop :=
  (∀ (e : FilterEntry) (p : MsgProps),
    e.matchesMsg p = true ↔
      e.enabled = true ∧ e.lines.getLsbD p.line.val = true ∧
      (∀ k : Fin 8, e.first.mask.getLsbD k.val = true → p.first.getLsbD k.val = e.first.value.getLsbD k.val) ∧
      (∀ t, e.second = some t → ∃ b, p.second = some b ∧
        ∀ k : Fin 8, t.mask.getLsbD k.val = true → b.getLsbD k.val = t.value.getLsbD k.val) ∧
      (e.address = .startOnly → p.addrStart = true) ∧ (e.address = .notStart → p.addrStart = false) ∧
      e.lenMin ≤ p.received ∧ p.received ≤ e.lenMax ∧
      (e.errorClass = .clean → p.errored = false) ∧ (e.errorClass = .errored → p.errored = true) ∧
      (e.origin = .ownOnly → p.own = true) ∧ (e.origin = .foreignOnly → p.own = false)) ∧
  ∀ (p : MsgProps) (dflt : Decision) (table : List Filter) (a : FilterAnswer), a = filterAnswer p dflt table →
    (∀ f : Filter, Filter.count p f =
      { f with hits := if f.entry.matchesMsg p then satInc 0xFFFFFFFF f.hits else f.hits }) ∧
    (∀ n : FlagId, a.flags.getLsbD n.val = true ↔
      ∃ f ∈ table, f.entry.matchesMsg p = true ∧ f.entry.flag = some n) ∧
    ((∀ f ∈ table, f.entry.matchesMsg p = true → f.entry.action = .count) →
      a.decision = dflt ∧ a.index = none ∧ a.slice = 256) ∧
    ∀ k f, table[k]? = some f → f.entry.matchesMsg p = true → f.entry.action ≠ .count →
      (∀ j g, j < k → table[j]? = some g → g.entry.matchesMsg p = true → g.entry.action = .count) →
      a.index = some k ∧ (f.entry.action = .drop → a.decision = .drop) ∧
        (f.entry.action = .record → a.decision = .record ∧ a.slice = f.entry.slice)

/-! ### Trigger sequencer -/

/-- R73 to R75, R135: SEQ_LOAD judges state, range and the seven rules of R74, in that order, and a RULE reply carries the
lowest-numbered step that breaks one; a table that passes replaces the old one, and the state becomes IDLE and the fault
cause NONE; nothing else of the sequencer changes. The table is read record by record, twelve bytes each, and is out of
range exactly when one of its records is. -/
def Obligations.SeqLoadReplacesTheTable : Prop :=
  (∀ (n : Nat) (p : List Byte),
    (parseTable n p = none ↔ ∃ k, k < n ∧ parseStep ((p.drop (12 * k)).take 12) = none) ∧
    ∀ table, parseTable n p = some table ↔
      table.length = n ∧ ∀ k, k < n → parseStep ((p.drop (12 * k)).take 12) = table[k]?) ∧
  (∀ mask opts n0 n1 guard exit els action operand z0 z1 z2 : Byte,
    parseStep [mask, opts, n0, n1, guard, exit, els, action, operand, z0, z1, z2] = none ↔
      opts.toNat / 4 % 4 = 3 ∨ (4 ≤ guard.toNat ∧ guard ≠ 0xFF) ∨
        (16 ≤ exit.toNat % 128 ∧ exit.toNat % 128 < 0x40) ∨ 0x41 < exit.toNat % 128 ∨
        (guard ≠ 0xFF ∧ ((16 ≤ els.toNat % 128 ∧ els.toNat % 128 < 0x40) ∨ 0x41 < els.toNat % 128)) ∨
        8 < action.toNat ∨ (1 ≤ action.toNat ∧ action.toNat ≤ 3 ∧ 4 ≤ operand.toNat) ∨
        (4 ≤ action.toNat ∧ action.toNat ≤ 5 ∧ 8 ≤ operand.toNat) ∨ (action = 8 ∧ 8 ≤ operand.toNat)) ∧
  (∀ (loaded index : Nat) (st : StepRecord), st.breaksRule loaded index = true ↔
    st.mask = 0 ∨ st.occurrences = 0 ∨ (∃ j, st.matchTarget = .step j ∧ loaded ≤ j.val) ∨
      (st.guard ≠ none ∧ ∃ j, st.elseTarget = some (.step j) ∧ loaded ≤ j.val) ∨
      (st.matchKind = .call ∧ index + 1 = loaded) ∨ (st.timing = .onElse ∧ st.guard = none) ∨
      (∃ u, st.guard = some u ∧ (st.action = .startTimer u ∨ st.action = .stopTimer u))) ∧
  (∀ (loaded : Nat) (table : List StepRecord),
    (firstBreak loaded 0 table = none ↔
      ∀ (j : Nat) (st : StepRecord), table[j]? = some st → st.breaksRule loaded j = false) ∧
    ∀ k, firstBreak loaded 0 table = some k ↔
      (∃ st, table[k]? = some st ∧ st.breaksRule loaded k = true) ∧
        ∀ (j : Nat) (st : StepRecord), j < k → table[j]? = some st → st.breaksRule loaded j = false) ∧
  ∀ (tag : Byte) (p : List Byte) (s s1 : State), admits 0x40 p.length = true → TakenAs s ⟨tag, 0x40, p⟩ s1 →
    (s1.seq.state = .armed → exec (.seqLoad tag p) s = .next (answered s1 s1 ⟨tag, 0x40, p⟩ .state [])) ∧
    (s1.seq.state ≠ .armed → parseTable (p.length / 12) p = none →
      exec (.seqLoad tag p) s = .next (answered s1 s1 ⟨tag, 0x40, p⟩ .range [])) ∧
    ∀ table, s1.seq.state ≠ .armed → parseTable (p.length / 12) p = some table →
      (∀ k, firstBreak (p.length / 12) 0 table = some k →
        exec (.seqLoad tag p) s = .next (answered s1 s1 ⟨tag, 0x40, p⟩ .rule [BitVec.ofNat 8 k])) ∧
      (firstBreak (p.length / 12) 0 table = none →
        exec (.seqLoad tag p) s =
          .next (answered s1 { s1 with seq := { s1.seq with table := table, state := .idle, cause := .none } }
            ⟨tag, 0x40, p⟩ .ok []))

/-- R76 to R78: SEQ_ARM and SEQ_DISARM. -/
def Obligations.SeqArmAndDisarm : Prop :=
  (∀ (tag : Byte) (s s1 : State), TakenAs s ⟨tag, 0x41, []⟩ s1 →
    (s1.seq.state = .armed → exec (.seqArm tag []) s = .next (answered s1 s1 ⟨tag, 0x41, []⟩ .state [])) ∧
    (s1.seq.state ≠ .armed → s1.seq.table = [] →
      exec (.seqArm tag []) s = .next (answered s1 s1 ⟨tag, 0x41, []⟩ .rule [])) ∧
    ∀ st rest, s1.seq.state ≠ .armed → s1.seq.table = st :: rest →
      (st.guard = none →
        exec (.seqArm tag []) s =
          .next (answered s1 { s1 with seq := { s1.seq with
            state := .armed, flags := 0, link := none, queue := [], cause := .none, current := 0, occurrence := 0
            out := { s1.seq.out with held := false, pulse := none } } } ⟨tag, 0x41, []⟩ .ok [])) ∧
      ∀ u, st.guard = some u →
        exec (.seqArm tag []) s =
          .next (answered s1
            { s1.setTimer u { s1.timer u with
                count := 0, generation := (s1.timer u).generation + 1, state := .running } with
              seq := { s1.seq with
                state := .armed, flags := 0, link := none, queue := [], cause := .none, current := 0
                occurrence := 0, guardGen := (s1.timer u).generation + 1
                out := { s1.seq.out with held := false, pulse := none } } }
            ⟨tag, 0x41, []⟩ .ok [])) ∧
  ∀ (tag : Byte) (s s1 : State), TakenAs s ⟨tag, 0x42, []⟩ s1 →
    (s1.seq.state ≠ .armed ∨ (s1.seq.step?.bind (·.guard)) = none →
      exec (.seqDisarm tag []) s =
        .next (answered s1 { s1 with seq := { s1.seq with
          state := .idle, out := { s1.seq.out with held := false, pulse := none } } } ⟨tag, 0x42, []⟩ .ok [])) ∧
    ∀ u, s1.seq.state = .armed → s1.seq.step?.bind (·.guard) = some u →
      exec (.seqDisarm tag []) s =
        .next (answered s1
          { s1.setTimer u { s1.timer u with state := .idle } with
            seq := { s1.seq with
              state := .idle, out := { s1.seq.out with held := false, pulse := none } } } ⟨tag, 0x42, []⟩ .ok [])

/-- R86, R87: SEQ_FORCE stops the guard and fires with cause FORCE, and is refused with STATE outside ARMED; and what
a fire does: FIRED, the last fire record, TRIG offered to the trigger mask, TRIG_OUT driven, TRIGGER raised. -/
def Obligations.SeqForceFires : Prop :=
  (∀ (tag : Byte) (s s1 : State), TakenAs s ⟨tag, 0x43, []⟩ s1 →
    (s1.seq.state ≠ .armed → exec (.seqForce tag []) s = .next (answered s1 s1 ⟨tag, 0x43, []⟩ .state [])) ∧
    (s1.seq.state = .armed →
      (s1.seq.step?.bind (·.guard) = none →
        exec (.seqForce tag []) s = .next (answered s1 (s1.fire .forced) ⟨tag, 0x43, []⟩ .ok [])) ∧
      ∀ u, s1.seq.step?.bind (·.guard) = some u →
        exec (.seqForce tag []) s =
          .next (answered s1 ((s1.setTimer u { s1.timer u with state := .idle }).fire .forced)
            ⟨tag, 0x43, []⟩ .ok []))) ∧
  ∀ (s o : State) (cause : FireCause) (f : FireRecord),
    f = { step := s.seq.current, cause := cause, time := s.tb.counter, tag := s.tb.epoch.extractLsb' 0 8 } →
    o = s.offerSet s.seq.trigMask (trigRecord f) →
    s.fire cause = { o with
      seq := { s.seq with
        state := .fired, lastFire := some f
        out := match s.seq.out.mode with
          | .level => { s.seq.out with held := true }
          | .pulse =>
            if s.seq.out.held then s.seq.out else { s.seq.out with pulse := some s.seq.out.width } }
      link := o.link.raise
        { kind := .trigger
          payload := [BitVec.ofNat 8 f.step.val, match cause with | .matched => 0 | .elsed => 1 | .forced => 2] ++
            bytesOfNat 4 f.time.toNat ++ [f.tag] } }

/-- R80, R88, R93, R94: SEQ_MASKS, FLAGS_WRITE (with the loss of its event at a full queue, R79, R89), OUTPUT_CONFIG,
and the level of the TRIG_OUT pin. -/
def Obligations.SeqSettingsWritten : Prop :=
  (∀ (tag tm mm : Byte) (s s1 : State), TakenAs s ⟨tag, 0x45, [tm, mm]⟩ s1 →
    (16 ≤ tm.toNat ∨ 16 ≤ mm.toNat →
      exec (.seqMasks tag [tm, mm]) s = .next (answered s1 s1 ⟨tag, 0x45, [tm, mm]⟩ .range [])) ∧
    ∀ t m : QuadSet, tm.toNat = t.toNat → mm.toNat = m.toNat →
      exec (.seqMasks tag [tm, mm]) s =
        .next (answered s1 { s1 with seq := { s1.seq with trigMask := t, markMask := m } }
          ⟨tag, 0x45, [tm, mm]⟩ .ok [])) ∧
  (∀ (tag a b : Byte) (s s1 : State), TakenAs s ⟨tag, 0x46, [a, b]⟩ s1 →
    (a &&& b ≠ 0 → exec (.flagsWrite tag [a, b]) s = .next (answered s1 s1 ⟨tag, 0x46, [a, b]⟩ .range [])) ∧
    (a &&& b = 0 → s1.seq.state ≠ .armed →
      exec (.flagsWrite tag [a, b]) s =
        .next (answered s1 { s1 with seq := { s1.seq with flags := (s1.seq.flags ||| a) &&& ~~~b } }
          ⟨tag, 0x46, [a, b]⟩ .ok [])) ∧
    (a &&& b = 0 → s1.seq.state = .armed → s1.seq.queue.length < 16 →
      exec (.flagsWrite tag [a, b]) s =
        .next (answered s1 { s1 with seq := { s1.seq with queue := s1.seq.queue ++ [.host a b] } }
          ⟨tag, 0x46, [a, b]⟩ .ok [])) ∧
    (a &&& b = 0 → s1.seq.state = .armed → 16 ≤ s1.seq.queue.length → ∀ g : State,
      g = (match s1.seq.step?.bind (·.guard) with
        | none => s1
        | some u => s1.setTimer u { s1.timer u with state := .idle }) →
      exec (.flagsWrite tag [a, b]) s =
        .next (answered s1
          { g with
            seq := { s1.seq with state := .fault, cause := .eventLoss }
            stats := { s1.stats with eventsLost := satInc 0xFFFFFFFF s1.stats.eventsLost }
            link := s1.link.raise
              { kind := .seqFault, payload := [1, BitVec.ofNat 8 s1.seq.current.val] } }
          ⟨tag, 0x46, [a, b]⟩ .full []))) ∧
  (∀ o : TrigOut,
    (o.asserted = true ↔ o.held = true ∨ o.pulse ≠ none) ∧
    (o.held = true ∨ o.pulse ≠ none → o.pin ≠ o.idleLevel) ∧
    (o.held = false → o.pulse = none → o.pin = o.idleLevel)) ∧
  ∀ (tag lb mb w0 w1 : Byte) (s s1 : State), TakenAs s ⟨tag, 0x47, [lb, mb, w0, w1]⟩ s1 →
    (s1.seq.out.asserted = true →
      exec (.outputConfig tag [lb, mb, w0, w1]) s =
        .next (answered s1 s1 ⟨tag, 0x47, [lb, mb, w0, w1]⟩ .state [])) ∧
    (s1.seq.out.asserted = false → 1 < lb.toNat ∨ 1 < mb.toNat ∨ natOfBytes [w0, w1] = 0 →
      exec (.outputConfig tag [lb, mb, w0, w1]) s =
        .next (answered s1 s1 ⟨tag, 0x47, [lb, mb, w0, w1]⟩ .range [])) ∧
    ∀ (l : PinLevel) (m : OutputMode), s1.seq.out.asserted = false →
      lb = (match l with | .low => 0 | .high => 1) → mb = (match m with | .level => 0 | .pulse => 1) →
      natOfBytes [w0, w1] ≠ 0 →
      exec (.outputConfig tag [lb, mb, w0, w1]) s =
        .next (answered s1
          { s1 with seq := { s1.seq with
              out := { s1.seq.out with idleLevel := l, mode := m, width := natOfBytes [w0, w1] } } }
          ⟨tag, 0x47, [lb, mb, w0, w1]⟩ .ok [])

/-- R79, R81 to R84, R89, R142: an event that arrives, of whatever source, joins the queue as the newest while it holds
fewer than 16; a full queue loses it with a count, and then an ARMED sequencer stops its guard, enters FAULT with cause
EVENT_LOSS and raises SEQFAULT. The oldest event is taken and counted. Outside ARMED it is discarded. In ARMED a guard expiry
sets its flag, performs an ELSE action and takes the else exit; any other event applies the flags R82's table
gives it, and advances the step only when it sets a masked flag and the condition then holds. A qualifying event counts, performs an EACH action,
and at the N-th performs an EXIT action, consumes and takes the match exit. -/
def Obligations.EventIsTaken : Prop :=
  ((∀ f : FlagId, flagBit? (some f) = (1 : BitVec 8) <<< f.val) ∧ flagBit? none = 0 ∧
    (∀ (i : LineId) (m : FlagSet), (SeqEvent.message i m).toSet = m ∧ (SeqEvent.message i m).toClear = 0) ∧
    (∀ (u : UnitId) (g : Byte), (SeqEvent.timer u none g).toSet = 0 ∧ (SeqEvent.timer u none g).toClear = 0 ∧
      ∀ f : FlagId, (SeqEvent.timer u (some f) g).toSet = (1 : BitVec 8) <<< f.val ∧
        (SeqEvent.timer u (some f) g).toClear = 0) ∧
    (∀ (p : PinId) (f : FlagId),
      (SeqEvent.input p f).toSet = (1 : BitVec 8) <<< f.val ∧ (SeqEvent.input p f).toClear = 0) ∧
    ∀ a b : FlagSet, (SeqEvent.host a b).toSet = a ∧ (SeqEvent.host a b).toClear = b) ∧
  (∀ (s l g : State) (e : SeqEvent),
    l = { s with stats := { s.stats with eventsLost := satInc 0xFFFFFFFF s.stats.eventsLost } } →
    g = (match s.seq.step?.bind (·.guard) with
      | none => l
      | some u => l.setTimer u { s.timer u with state := .idle }) →
    (s.seq.queue.length < 16 →
      s.joinQueue e = { s with seq := { s.seq with queue := s.seq.queue ++ [e] } }) ∧
    (16 ≤ s.seq.queue.length → s.seq.state ≠ .armed → s.joinQueue e = l) ∧
    (16 ≤ s.seq.queue.length → s.seq.state = .armed →
      s.joinQueue e = { g with
        seq := { s.seq with state := .fault, cause := .eventLoss }
        link := s.link.raise { kind := .seqFault, payload := [1, BitVec.ofNat 8 s.seq.current.val] } })) ∧
  ∀ (s t : State) (e : SeqEvent) (rest : List SeqEvent), s.seq.queue = e :: rest →
    t = { s with
      seq := { s.seq with queue := rest }
      stats := { s.stats with eventsTaken := satInc 0xFFFFFFFF s.stats.eventsTaken } } →
    (s.seq.state ≠ .armed → exec .eventTaken s = .next t) ∧
    ∀ st, s.seq.state = .armed → s.seq.step? = some st →
      (∀ u f, st.guard = some u → e = .timer u f s.seq.guardGen →
        exec .eventTaken s =
          .next (((({ t with seq := { t.seq with flags := s.seq.flags ||| flagBit? f } }).actionAt st
            .onElse)).elseExit st)) ∧
      ((∀ u f, st.guard = some u → e ≠ .timer u f s.seq.guardGen) → ∀ flags : FlagSet,
        flags = (s.seq.flags ||| e.toSet) &&& ~~~e.toClear →
        (e.toSet &&& st.mask = 0 ∨ (st.sense = .any ∧ flags &&& st.mask = 0) ∨
            (st.sense = .all ∧ flags &&& st.mask ≠ st.mask) →
          exec .eventTaken s = .next { t with seq := { t.seq with flags := flags } }) ∧
        (e.toSet &&& st.mask ≠ 0 →
          (st.sense = .any ∧ flags &&& st.mask ≠ 0) ∨ (st.sense = .all ∧ flags &&& st.mask = st.mask) →
          s.seq.occurrence < 65535 →
          ∀ n : State, n = { t with seq := { t.seq with flags := flags, occurrence := s.seq.occurrence + 1 } } →
          (s.seq.occurrence + 1 ≠ st.occurrences → exec .eventTaken s = .next (n.actionAt st .each)) ∧
          (s.seq.occurrence + 1 = st.occurrences → ∀ x : State, x = (n.actionAt st .each).actionAt st .exit →
            exec .eventTaken s =
              .next (State.matchExit { x with seq := { x.seq with
                flags := if st.consume then x.seq.flags &&& ~~~st.mask else x.seq.flags } } st))))

/-- R90 to R93, R152: the step's action is performed at its own timing and at no other, and what each action does. -/
def Obligations.ActionsArePerformed : Prop :=
  ∀ (s : State) (st : StepRecord) (t : ActionTiming),
    (st.timing ≠ t → s.actionAt st t = s) ∧
    (st.timing = t →
      (st.action = .none → s.actionAt st t = s) ∧
      (∀ u, st.action = .startTimer u →
        s.actionAt st t =
          s.setTimer u { s.timer u with count := 0, generation := (s.timer u).generation + 1, state := .running }) ∧
      (∀ u, st.action = .stopTimer u → s.actionAt st t = s.setTimer u { s.timer u with state := .idle }) ∧
      (∀ u, st.action = .captureTimer u →
        s.actionAt st t =
          (s.setTimer u { s.timer u with capture := (s.timer u).count }).offerSet (s.timer u).mask
            (measRecord u (s.timer u).count s.tb.counter (s.tb.epoch.extractLsb' 0 8))) ∧
      (∀ f : FlagId, st.action = .setFlag f →
        s.actionAt st t = { s with seq := { s.seq with flags := s.seq.flags ||| (1 : BitVec 8) <<< f.val } }) ∧
      (∀ f : FlagId, st.action = .clearFlag f →
        s.actionAt st t = { s with seq := { s.seq with flags := s.seq.flags &&& ~~~((1 : BitVec 8) <<< f.val) } }) ∧
      (∀ v, st.action = .mark v →
        s.actionAt st t =
          s.offerSet s.seq.markMask
            (markRecord s.seq.current v s.tb.counter (s.tb.epoch.extractLsb' 0 8))) ∧
      (st.action = .pulse →
        (s.seq.out.held = true → s.actionAt st t = s) ∧
        (s.seq.out.held = false →
          s.actionAt st t =
            { s with seq := { s.seq with out := { s.seq.out with pulse := some s.seq.out.width } } })) ∧
      ∀ c : Fin 8, st.action = .send c →
        (s.canned[c] = none →
          s.actionAt st t =
            s.setLineStats 0
              { s.lineStats 0 with txRefused := satInc 0xFFFFFFFF (s.lineStats 0).txRefused }) ∧
        ∀ (cm : CannedMessage) (l : Line), s.canned[c] = some cm → l = s.line cm.line →
          (l.rx.state = .off ∨ l.rx.stopPending = true ∨ l.cfg.txPermitted = false ∨ 4 ≤ l.tx.queue.length →
            s.actionAt st t =
              s.setLineStats cm.line
                { s.lineStats cm.line with txRefused := satInc 0xFFFFFFFF (s.lineStats cm.line).txRefused }) ∧
          (l.rx.state ≠ .off → l.rx.stopPending = false → l.cfg.txPermitted = true → l.tx.queue.length < 4 →
            s.actionAt st t =
              s.setTx cm.line { l.tx with
                queue := l.tx.queue ++ [⟨.canned c, cm.preamble, cm.brk, cm.addrFirst, cm.data⟩]
                state := if l.tx.state = .idle then .wait else l.tx.state }))

/-- R77, R84, R85, R89: an exit stops the guard, a CALL writes the link slot, and the target is acted on: a step is
entered, RETURN uses the slot, and with an empty slot the sequencer enters FAULT. -/
def Obligations.ExitsAndStepEntry : Prop :=
  (∀ (s g : State) (st : StepRecord),
    g = (match st.guard with
      | none => s
      | some u => s.setTimer u { s.timer u with state := .idle }) →
    (st.matchKind = .go → s.matchExit st = g.goTarget st.matchTarget .matched) ∧
    (st.matchKind = .call →
      s.matchExit st =
        State.goTarget { g with seq := { g.seq with link := some (s.seq.current + 1) } } st.matchTarget .matched) ∧
    ∀ target, st.elseTarget = some target → s.elseExit st = g.goTarget target .elsed) ∧
  (∀ (s : State) (c : FireCause),
    (∀ i, s.goTarget (.step i) c = s.enterStep i) ∧ s.goTarget .fire c = s.fire c ∧
    (∀ r, s.seq.link = some r →
      s.goTarget .ret c = State.enterStep { s with seq := { s.seq with link := none } } r) ∧
    (s.seq.link = none →
      s.goTarget .ret c = { s with
        seq := { s.seq with state := .fault, cause := .emptyReturn }
        link := s.link.raise { kind := .seqFault, payload := [2, BitVec.ofNat 8 s.seq.current.val] } })) ∧
  ∀ (s : State) (i : Fin 16) (st : StepRecord), s.seq.table[i.val]? = some st →
    (st.guard = none →
      s.enterStep i = { s with seq := { s.seq with current := i, occurrence := 0 } }) ∧
    ∀ u, st.guard = some u →
      s.enterStep i =
        { s.setTimer u { s.timer u with
            count := 0, generation := (s.timer u).generation + 1, state := .running } with
          seq := { s.seq with current := i, occurrence := 0, guardGen := (s.timer u).generation + 1 } }

/-! ### Capture store -/

/-- R99, R100, R102 to R104, R121: the requests that place, start, stop, clear and rewind a region. (That REGION_START
answers RANGE before STATE when both apply is the model's choice: log 30, DESIGN CHOICE.) -/
def Obligations.RegionRequests : Prop :=
  (∀ (tag base z0 z1 pb t0 t1 : Byte) (id : RegionId) (s s1 : State) (p : List Byte),
    p = [quadByte id, base, z0, z1, pb, t0, t1] → TakenAs s ⟨tag, 0x50, p⟩ s1 →
    ((s1.region id).state ≠ .disabled → (s1.region id).state ≠ .stopped →
      exec (.regionConfig tag p) s = .next (answered s1 s1 ⟨tag, 0x50, p⟩ .state [])) ∧
    ∀ size threshold, (s1.region id).state = .disabled ∨ (s1.region id).state = .stopped →
      size = natOfBytes [z0, z1] → threshold = natOfBytes [t0, t1] →
      (1 < pb.toNat ∨ size = 1 ∨ 256 < size ∨ 64 * size < threshold ∨ (size ≠ 0 ∧ 256 < base.toNat + size) ∨
          (size ≠ 0 ∧ ∃ j, j ≠ id ∧ (s1.region j).state ≠ .disabled ∧
            base.toNat < (s1.region j).base + (s1.region j).size ∧ (s1.region j).base < base.toNat + size) →
        exec (.regionConfig tag p) s = .next (answered s1 s1 ⟨tag, 0x50, p⟩ .range [])) ∧
      ∀ pol : Policy, pb = pol.code → size ≠ 1 → size ≤ 256 → threshold ≤ 64 * size →
        (size ≠ 0 → base.toNat + size ≤ 256 ∧ ∀ j, j ≠ id → (s1.region j).state ≠ .disabled →
          ¬(base.toNat < (s1.region j).base + (s1.region j).size ∧ (s1.region j).base < base.toNat + size)) →
        exec (.regionConfig tag p) s =
          .next (answered s1
            (s1.setRegion id { s1.region id with
              base := base.toNat, size := size, policy := pol, threshold := threshold
              state := if size = 0 then .disabled else .stopped
              head := 0, cursor := 0, tail := 0, used := 0, unread := 0, count := 0, quota := 0, pendMsgs := 0
              pendOther := 0, hasTrig := false, short := false, trigMissing := false, crossed := false })
            ⟨tag, 0x50, p⟩ .ok [])) ∧
  (∀ (tag m q0 q1 : Byte) (id : RegionId) (s s1 : State), TakenAs s ⟨tag, 0x51, [quadByte id, m, q0, q1]⟩ s1 →
    (1 < m.toNat →
      exec (.regionStart tag [quadByte id, m, q0, q1]) s =
        .next (answered s1 s1 ⟨tag, 0x51, [quadByte id, m, q0, q1]⟩ .range [])) ∧
    (m.toNat ≤ 1 → (s1.region id).state ≠ .stopped ∨ (m = 1 ∧ (s1.region id).hasTrig = true) →
      exec (.regionStart tag [quadByte id, m, q0, q1]) s =
        .next (answered s1 s1 ⟨tag, 0x51, [quadByte id, m, q0, q1]⟩ .state [])) ∧
    (m = 0 → (s1.region id).state = .stopped →
      exec (.regionStart tag [quadByte id, m, q0, q1]) s =
        .next (answered s1
          (s1.setRegion id { s1.region id with state := .run, quota := 0, short := false, trigMissing := false })
          ⟨tag, 0x51, [quadByte id, m, q0, q1]⟩ .ok [])) ∧
    (m = 1 → (s1.region id).state = .stopped → (s1.region id).hasTrig = false →
      exec (.regionStart tag [quadByte id, m, q0, q1]) s =
        .next (answered s1
          (s1.setRegion id { s1.region id with
            state := .armed, quota := natOfBytes [q0, q1], short := false, trigMissing := false })
          ⟨tag, 0x51, [quadByte id, m, q0, q1]⟩ .ok []))) ∧
  ∀ (tag : Byte) (id : RegionId) (s s1 : State),
    (TakenAs s ⟨tag, 0x52, [quadByte id]⟩ s1 →
      ((s1.region id).state = .disabled →
        exec (.regionStop tag [quadByte id]) s = .next (answered s1 s1 ⟨tag, 0x52, [quadByte id]⟩ .state [])) ∧
      ((s1.region id).state ≠ .disabled →
        exec (.regionStop tag [quadByte id]) s =
          .next (answered s1 (s1.setRegion id { s1.region id with state := .stopped })
            ⟨tag, 0x52, [quadByte id]⟩ .ok []))) ∧
    (TakenAs s ⟨tag, 0x53, [quadByte id]⟩ s1 →
      ((s1.region id).state = .disabled →
        exec (.regionClear tag [quadByte id]) s = .next (answered s1 s1 ⟨tag, 0x53, [quadByte id]⟩ .state [])) ∧
      ((s1.region id).state ≠ .disabled →
        exec (.regionClear tag [quadByte id]) s =
          .next (answered s1
            (s1.setRegion id { s1.region id with
              state := .stopped
              head := 0, cursor := 0, tail := 0, used := 0, unread := 0, count := 0, quota := 0, pendMsgs := 0
              pendOther := 0, hasTrig := false, short := false, trigMissing := false, crossed := false })
            ⟨tag, 0x53, [quadByte id]⟩ .ok []))) ∧
    (TakenAs s ⟨tag, 0x57, [quadByte id]⟩ s1 →
      ((s1.region id).state = .disabled →
        exec (.rewind tag [quadByte id]) s = .next (answered s1 s1 ⟨tag, 0x57, [quadByte id]⟩ .state [])) ∧
      ((s1.region id).state ≠ .disabled →
        exec (.rewind tag [quadByte id]) s =
          .next (answered s1
            (s1.setRegion id { s1.region id with
              cursor := (s1.region id).head, unread := (s1.region id).used })
            ⟨tag, 0x57, [quadByte id]⟩ .ok [])))

/-- R119, R136: READ is refused with RANGE when the maximum is below 288, above 1020 or no multiple of 4, and after that
with STATE when the region is DISABLED (that the two are judged in this order is the model's choice: log 30, DESIGN CHOICE).
Otherwise it copies whole records from the cursor, as many as fit, and moves the
cursor and the unread words past them and nothing else; the reply says how many and whether the cursor still lies short
of the tail. -/
def Obligations.ReadDeliversWholeRecords : Prop :=
  ∀ (tag m0 m1 : Byte) (id : RegionId) (s s1 : State) (r : Region),
    TakenAs s ⟨tag, 0x55, [quadByte id, m0, m1]⟩ s1 → r = s1.region id →
    (natOfBytes [m0, m1] < 288 ∨ 1020 < natOfBytes [m0, m1] ∨ natOfBytes [m0, m1] % 4 ≠ 0 →
      exec (.read tag [quadByte id, m0, m1]) s =
        .next (answered s1 s1 ⟨tag, 0x55, [quadByte id, m0, m1]⟩ .range [])) ∧
    ∀ room : Nat, 4 * room = natOfBytes [m0, m1] → 72 ≤ room → room ≤ 255 →
      (r.state = .disabled →
        exec (.read tag [quadByte id, m0, m1]) s =
          .next (answered s1 s1 ⟨tag, 0x55, [quadByte id, m0, m1]⟩ .state [])) ∧
      (r.state ≠ .disabled → r.Sound → ∀ read unread : List Nat, r.chain s1.store.mem r.head (read ++ unread) →
        r.count = (read ++ unread).length → r.used = (read ++ unread).sum → r.unread = unread.sum →
        r.cursor = r.advance r.head read.sum →
        ∃ k, k ≤ unread.length ∧ (unread.take k).sum ≤ room ∧
          (k < unread.length → room < (unread.take (k + 1)).sum) ∧
          exec (.read tag [quadByte id, m0, m1]) s =
            .next (answered s1
              (s1.setRegion id { r with
                cursor := r.advance r.head (read ++ unread.take k).sum, unread := (unread.drop k).sum })
              ⟨tag, 0x55, [quadByte id, m0, m1]⟩ .ok
              ([quadByte id, BitVec.ofNat 8 k, if k < unread.length then 1 else 0] ++
                (r.readWords s1.store.mem (unread.take k).sum r.cursor).flatMap wordBytes)))

/-- R120, R117, R118: RELEASE frees read records from the head, oldest first, at most the count carried (0 means all),
and replies how many; no record at or beyond the cursor is freed, and no counter moves. The region has a TRIG record
afterwards exactly when it had one and none of the records freed is of kind 7, TRIG. -/
def Obligations.ReleaseFreesReadRecords : Prop :=
  ∀ (tag c0 c1 : Byte) (id : RegionId) (s s1 : State) (r : Region),
    TakenAs s ⟨tag, 0x56, [quadByte id, c0, c1]⟩ s1 → r = s1.region id →
    (r.state = .disabled →
      exec (.release tag [quadByte id, c0, c1]) s =
        .next (answered s1 s1 ⟨tag, 0x56, [quadByte id, c0, c1]⟩ .state [])) ∧
    (r.state ≠ .disabled → ∀ read unread : List Nat, r.chain s1.store.mem r.head (read ++ unread) →
      r.count = (read ++ unread).length → r.used = (read ++ unread).sum → r.unread = unread.sum →
      ∃ (k : Nat) (f : Region) (n : List Notice),
        k = (if natOfBytes [c0, c1] = 0 then read.length else min (natOfBytes [c0, c1]) read.length) ∧
        f = { r with
          head := (if k = 0 then r.head else r.advance r.head (read.take k).sum)
          used := r.used - (read.take k).sum, count := r.count - k, hasTrig := f.hasTrig, crossed := f.crossed } ∧
        (f.hasTrig = true ↔ r.hasTrig = true ∧ ∀ j, j < k →
          headerKind (r.headerAt s1.store.mem (if j = 0 then r.head else r.advance r.head (read.take j).sum)) ≠ 7) ∧
        (f.crossed = true ↔ r.threshold ≠ 0 ∧ r.threshold ≤ f.used) ∧
        (r.crossed = true ∨ f.crossed = false → n = []) ∧
        exec (.release tag [quadByte id, c0, c1]) s =
          .next (answered s1 { s1.setRegion id f with link := s1.link.raiseAll n }
            ⟨tag, 0x56, [quadByte id, c0, c1]⟩ .ok (bytesOfNat 2 k)))

/-- R105 to R109, R111 to R116, R118, R125: what a region does with a record offered to it, by its state, its policy
and the room: not received, refused and counted, refused with a freeze, written after making room, or written at the
tail, with a LOSS record before it while refusals are pending; and the notices and the threshold marker that follow. An offer
to one region takes that region and the memory so, raises its notices and leaves the other regions; an offer to a set
reaches its members and no others (in ascending order: log 12, DESIGN CHOICE). -/
def Obligations.OffersAreTaken : Prop :=
  (∀ (s : State) (id : RegionId) (rec : Rec) (o : Offered),
    o = Placed.offer id { mem := s.store.mem, region := s.region id } rec →
    s.offer id rec = { s with
      store := { mem := o.placed.mem, regions := s.store.regions.set id o.placed.region }
      link := s.link.raiseAll o.notices } ∧
    (s.offer id rec).region id = o.placed.region ∧ (∀ j, j ≠ id → (s.offer id rec).region j = s.region j) ∧
    s.offerRecorded id rec = o.recorded) ∧
  (∀ (s : State) (m : QuadSet) (rec : Rec),
    s.offerSet m rec =
      (([0, 1, 2, 3] : List RegionId).filter (fun id => m.getLsbD id.val)).foldl (fun t id => t.offer id rec) s) ∧
  (∀ k : Link, k.raiseAll [] = k ∧ ∀ n rest, k.raiseAll (n :: rest) = (k.raise n).raiseAll rest) ∧
  ∀ (id : RegionId) (p : Placed) (rec : Rec) (need : Nat),
    need = rec.words.length + (if p.region.pendMsgs = 0 ∧ p.region.pendOther = 0 then 0 else 2) →
    (p.region.state = .disabled ∨ p.region.state = .stopped ∨ p.region.state = .frozen →
      (Placed.offer id p rec).recorded = false ∧ (Placed.offer id p rec).notices = [] ∧
      (Placed.offer id p rec).placed.mem = p.mem ∧
      (rec.kind = .msg → (Placed.offer id p rec).placed.region =
        { p.region with refusedMsgs := satInc 0xFFFFFFFF p.region.refusedMsgs }) ∧
      (rec.kind = .brk → (Placed.offer id p rec).placed.region =
        { p.region with refusedOther := satInc 0xFFFFFFFF p.region.refusedOther }) ∧
      (rec.kind ≠ .msg → rec.kind ≠ .brk → (Placed.offer id p rec).placed.region = p.region)) ∧
    (p.region.state = .run ∨ p.region.state = .postfill → rec.kind = .trig →
      Placed.offer id p rec = { placed := p, recorded := false, notices := [] }) ∧
    (p.region.state = .run ∨ p.region.state = .armed → p.region.free < need → p.region.policy = .stop →
      (rec.kind = .msg → Placed.offer id p rec =
        { placed := { p with region := { p.region with
            refusedMsgs := satInc 0xFFFFFFFF p.region.refusedMsgs
            pendMsgs := satInc 65535 p.region.pendMsgs } }, recorded := false, notices := [] }) ∧
      (rec.kind ≠ .msg → rec.kind ≠ .trig → Placed.offer id p rec =
        { placed := { p with region := { p.region with
            refusedOther := satInc 0xFFFFFFFF p.region.refusedOther
            pendOther := satInc 65535 p.region.pendOther } }, recorded := false, notices := [] })) ∧
    (p.region.state = .armed → p.region.free < need → p.region.policy = .stop → rec.kind = .trig →
      Placed.offer id p rec =
        { placed := { p with region := { p.region with
            refusedOther := satInc 0xFFFFFFFF p.region.refusedOther
            state := .frozen, short := false, trigMissing := true } }
          recorded := false
          notices := [{ kind := .frozen id, payload := [BitVec.ofNat 8 id.val, 2] }] }) ∧
    (p.region.state = .postfill → p.region.free < need → rec.kind = .msg →
      Placed.offer id p rec =
        { placed := { p with region := { p.region with
            refusedMsgs := satInc 0xFFFFFFFF p.region.refusedMsgs
            state := .frozen, short := true, trigMissing := false } }
          recorded := false
          notices := [{ kind := .frozen id, payload := [BitVec.ofNat 8 id.val, 1] }] }) ∧
    (p.region.state = .postfill → p.region.free < need → rec.kind ≠ .msg → rec.kind ≠ .trig →
      Placed.offer id p rec =
        { placed := { p with region := { p.region with
            refusedOther := satInc 0xFFFFFFFF p.region.refusedOther
            state := .frozen, short := true, trigMissing := false } }
          recorded := false
          notices := [{ kind := .frozen id, payload := [BitVec.ofNat 8 id.val, 1] }] }) ∧
    (p.region.state = .run ∨ p.region.state = .armed → (rec.kind = .trig → p.region.state = .armed) →
      p.region.free < need → p.region.policy = .roll →
      need ≤ (Region.makeRoom p.mem p.region.count p.region need).free →
      Placed.offer id p rec =
        Placed.offer id { p with region := Region.makeRoom p.mem p.region.count p.region need } rec) ∧
    (p.region.state = .run ∨ p.region.state = .armed ∨ p.region.state = .postfill →
      (rec.kind = .trig → p.region.state = .armed) → need ≤ p.region.free →
      (Placed.offer id p rec).recorded = true ∧
      (Placed.offer id p rec).placed.region.used = p.region.used + need ∧
      (Placed.offer id p rec).placed.region.unread = p.region.unread + need ∧
      (Placed.offer id p rec).placed.region.head = p.region.head ∧
      (Placed.offer id p rec).placed.region.cursor = p.region.cursor ∧
      (Placed.offer id p rec).placed.region.base = p.region.base ∧
      (Placed.offer id p rec).placed.region.size = p.region.size ∧
      (Placed.offer id p rec).placed.region.policy = p.region.policy ∧
      (Placed.offer id p rec).placed.region.threshold = p.region.threshold ∧
      (Placed.offer id p rec).placed.region.overwritten = p.region.overwritten ∧
      (Placed.offer id p rec).placed.region.unreadLost = p.region.unreadLost ∧
      (Placed.offer id p rec).placed.region.refusedMsgs = p.region.refusedMsgs ∧
      (Placed.offer id p rec).placed.region.refusedOther = p.region.refusedOther ∧
      (Placed.offer id p rec).placed.region.pendMsgs = 0 ∧ (Placed.offer id p rec).placed.region.pendOther = 0 ∧
      (p.region.pendMsgs = 0 → p.region.pendOther = 0 →
        (Placed.offer id p rec).placed.mem = p.region.writeWords p.mem p.region.tail rec.words ∧
        (Placed.offer id p rec).placed.region.tail = p.region.advance p.region.tail rec.words.length ∧
        (Placed.offer id p rec).placed.region.count = p.region.count + 1 ∧
        (Placed.offer id p rec).placed.region.written = satInc 0xFFFFFFFF p.region.written) ∧
      (p.region.pendMsgs ≠ 0 ∨ p.region.pendOther ≠ 0 →
        (Placed.offer id p rec).placed.mem =
          p.region.writeWords
            (p.region.writeWords p.mem p.region.tail (lossWords p.region.pendMsgs p.region.pendOther))
            (p.region.advance p.region.tail 2) rec.words ∧
        (Placed.offer id p rec).placed.region.tail = p.region.advance p.region.tail (2 + rec.words.length) ∧
        (Placed.offer id p rec).placed.region.count = p.region.count + 2 ∧
        (Placed.offer id p rec).placed.region.written = satInc 0xFFFFFFFF (satInc 0xFFFFFFFF p.region.written)) ∧
      (p.region.state ≠ .postfill → (Placed.offer id p rec).placed.region.quota = p.region.quota) ∧
      (rec.kind ≠ .trig → (Placed.offer id p rec).placed.region.hasTrig = p.region.hasTrig) ∧
      (rec.kind = .trig → (Placed.offer id p rec).placed.region.hasTrig = true ∧
        (Placed.offer id p rec).placed.region.state = if p.region.quota = 0 then .frozen else .postfill) ∧
      (p.region.state = .postfill → rec.kind = .msg ∨ rec.kind = .brk →
        (Placed.offer id p rec).placed.region.quota = p.region.quota - 1 ∧
        (Placed.offer id p rec).placed.region.state = if p.region.quota - 1 = 0 then .frozen else .postfill) ∧
      (p.region.state = .postfill → rec.kind ≠ .msg → rec.kind ≠ .brk →
        (Placed.offer id p rec).placed.region.quota = p.region.quota ∧
        (Placed.offer id p rec).placed.region.state = .postfill) ∧
      (p.region.state = .run → (Placed.offer id p rec).placed.region.state = .run) ∧
      (p.region.state = .armed → rec.kind ≠ .trig → (Placed.offer id p rec).placed.region.state = .armed) ∧
      ((Placed.offer id p rec).placed.region.state = .frozen →
        (Placed.offer id p rec).placed.region.short = false ∧
        (Placed.offer id p rec).placed.region.trigMissing = false) ∧
      ((Placed.offer id p rec).placed.region.state ≠ .frozen →
        (Placed.offer id p rec).placed.region.short = p.region.short ∧
        (Placed.offer id p rec).placed.region.trigMissing = p.region.trigMissing) ∧
      ((Placed.offer id p rec).placed.region.crossed = true ↔
        p.region.threshold ≠ 0 ∧ p.region.threshold ≤ p.region.used + need) ∧
      ∀ n : Notice, n ∈ (Placed.offer id p rec).notices ↔
        ((Placed.offer id p rec).placed.region.state = .frozen ∧
            n = { kind := .frozen id, payload := [BitVec.ofNat 8 id.val, 0] }) ∨
          (p.region.crossed = false ∧ p.region.threshold ≠ 0 ∧ p.region.threshold ≤ p.region.used + need ∧
            n = { kind := .threshold id
                  payload := BitVec.ofNat 8 id.val :: bytesOfNat 2 (p.region.used + need) }))

/-- R108: under ROLL in RUN or ARMED a record is never refused for room: whole records are discarded from the head, as
many as it takes and no more, each counted, and counted as lost unread when the cursor stood at it. The region has a TRIG
record afterwards exactly when it had one and none of the records discarded is of kind 7, TRIG. -/
def Obligations.RollMakesRoom : Prop :=
  ∀ (m : List Host.Cell) (r : Region) (need : Nat) (read unread : List Nat),
    r.chain m r.head (read ++ unread) → r.count = (read ++ unread).length → r.used = (read ++ unread).sum →
    r.unread = unread.sum → r.cursor = r.advance r.head read.sum → r.head < r.words → r.used ≤ r.words →
    need ≤ r.words →
    ∃ k, k ≤ (read ++ unread).length ∧
      need ≤ (Region.makeRoom m r.count r need).free ∧
      (0 < k → (r.words - r.used) + ((read ++ unread).take (k - 1)).sum < need) ∧
      (Region.makeRoom m r.count r need).used = ((read ++ unread).drop k).sum ∧
      (Region.makeRoom m r.count r need).count = r.count - k ∧
      (Region.makeRoom m r.count r need).head = r.advance r.head ((read ++ unread).take k).sum ∧
      (Region.makeRoom m r.count r need).unread = (unread.drop (k - read.length)).sum ∧
      (Region.makeRoom m r.count r need).cursor = r.advance r.head (read ++ unread.take (k - read.length)).sum ∧
      (Region.makeRoom m r.count r need).tail = r.tail ∧
      ((Region.makeRoom m r.count r need).hasTrig = true ↔ r.hasTrig = true ∧ ∀ j, j < k →
        headerKind (r.headerAt m (r.advance r.head ((read ++ unread).take j).sum)) ≠ 7) ∧
      (r.overwritten + k ≤ 0xFFFFFFFF →
        (Region.makeRoom m r.count r need).overwritten = r.overwritten + k) ∧
      (r.unreadLost + (k - read.length) ≤ 0xFFFFFFFF →
        (Region.makeRoom m r.count r need).unreadLost = r.unreadLost + (k - read.length))

/-- R97, R101, R107, R127: the words of an admitted record stand in the ring from the tail on, after two words of LOSS
when refusals were pending. The ring: 64 words to a block, position p at word 64 x base + p, after the last position
position 0; a word's four bytes stand at 4w to 4w + 3, the least significant lowest (the layout in bytes is log 14). -/
def Obligations.WrittenRecordsReadBack : Prop :=
  (∀ (r : Region) (p n : Nat), r.words = 64 * r.size ∧ r.free = r.words - r.used ∧ r.wordAt p = 64 * r.base + p ∧
    r.advance p n = (p + n) % r.words) ∧
  (∀ (r : Region) (m : List Host.Cell) (n p : Nat), r.readWords m 0 p = [] ∧
    r.readWords m (n + 1) p = Memory.readWord m (r.wordAt p) :: r.readWords m n (r.advance p 1)) ∧
  (∀ (s : State) (w : Nat) (k : Fin 4), s.byteAt (4 * w + k.val) = (s.wordAt w).extractLsb' (8 * k.val) 8) ∧
  (∀ v : Word, wordBytes v =
    [v.extractLsb' 0 8, v.extractLsb' 8 8, v.extractLsb' 16 8, v.extractLsb' 24 8]) ∧
  ∀ (s : State) (id : RegionId) (rec : Rec) (r : Region) (skip : Nat), MemoryCanonical s → r = s.region id →
    r.Sound → (r.state = .run ∨ r.state = .armed ∨ r.state = .postfill) →
    (rec.kind = .trig → r.state = .armed) → skip = (if r.pendMsgs = 0 ∧ r.pendOther = 0 then 0 else 2) →
    skip + rec.words.length ≤ r.free →
    ∀ k w, rec.words[k]? = some w → (s.offer id rec).wordAt (r.wordAt (r.advance r.tail (skip + k))) = w

/-- R127 to R129: the words of every record hold its fields at their bits; the data bytes and the status entries of an
MSG record stand four and two to a word after the four fixed words. -/
def Obligations.RecordLayouts : Prop :=
  (∀ k : RecKind, k.code = match k with
    | .msg => 1 | .brk => 2 | .epoch => 3 | .sync => 4 | .meas => 5 | .mark => 6 | .trig => 7 | .loss => 8) ∧
  (∀ h : Word, headerKind h = getField h 4 0 ∧ headerSize h = getField h 8 8) ∧
  (∀ (kind : RecKind) (source cause size flags entries : Nat) (h : Word), source < 4 → cause < 4 → size < 256 →
    flags < 4096 → entries < 16 → h = headerWord kind source cause size flags entries →
    getField h 4 0 = kind.code ∧ getField h 2 4 = source ∧ getField h 2 6 = cause ∧ getField h 8 8 = size ∧
    getField h 12 16 = flags ∧ getField h 4 28 = entries) ∧
  (∀ (line : LineId) (cause : EndCause) (m : Message) (index : Option Nat) (slice : Nat) (kept : List Byte),
    m.stored.length ≤ 256 → m.status.length ≤ 8 → m.received ≤ 65535 → m.lastEnd ≤ 0xFFFFFF →
    (∀ n, index = some n → n < 32) → kept = m.stored.take slice →
    ∃ (h w2 w3 : Word) (rest : List Word),
      msgRecord line cause m index slice = { kind := .msg, words := h :: m.startTime :: w2 :: w3 :: rest } ∧
      rest.length = (kept.length + 3) / 4 + (m.status.length + 1) / 2 ∧
      getField h 4 0 = 1 ∧ getField h 2 4 = line.val ∧
      getField h 2 6 = (match cause with | .gap => 0 | .address => 1 | .brk => 2 | .stop => 3) ∧
      getField h 8 8 = 4 + rest.length ∧ getField h 4 28 = m.status.length ∧
      (h.getLsbD 16 = m.flags.par ∧ h.getLsbD 17 = m.flags.frm ∧ h.getLsbD 18 = m.flags.noi ∧
        h.getLsbD 19 = m.flags.trunc ∧ h.getLsbD 20 = decide (slice < m.stored.length) ∧
        h.getLsbD 21 = m.flags.own ∧ h.getLsbD 22 = m.flags.coll ∧ h.getLsbD 23 = m.flags.addrStart ∧
        h.getLsbD 24 = m.flags.orphan ∧ h.getLsbD 25 = m.flags.statOvf ∧ h.getLsbD 26 = false ∧
        h.getLsbD 27 = false) ∧
      getField w2 24 0 = m.lastEnd ∧ getField w2 8 24 = m.startTag.toNat ∧
      getField w3 16 0 = m.received ∧ getField w3 9 16 = kept.length ∧ getField w3 6 25 = index.getD 63 ∧
      getField w3 1 31 = 0 ∧
      (∀ (k : Nat) (b : Byte), kept[k]? = some b →
        ∃ w, rest[k / 4]? = some w ∧ getField w 8 (8 * (k % 4)) = b.toNat) ∧
      ∀ (k : Nat) (e : StatusEntry), m.status[k]? = some e → e.position ≤ 255 →
        ∃ w, rest[(kept.length + 3) / 4 + k / 2]? = some w ∧
          getField w 8 (16 * (k % 2)) = e.position ∧
          getField w 2 (16 * (k % 2) + 8) =
            (match e.kind with | .parity => 0 | .framing => 1 | .noise => 2 | .address => 3)) ∧
  (∀ (i : LineId) (b : BreakInfo), b.duration ≤ 0xFFFFFF → ∃ w,
    (brkRecord i b).words =
      [headerWord .brk i.val 0 3 ((if b.cut then 1 else 0) + (if b.echo then 32 else 0)) 0, b.startTime, w] ∧
    getField w 24 0 = b.duration ∧ getField w 8 24 = b.startTag.toNat) ∧
  (∀ (epoch : BitVec 16) (pin : Option PinId), ∃ w,
    (epochRecord epoch pin).words = [headerWord .epoch 0 0 2 0 0, w] ∧ getField w 16 0 = epoch.toNat ∧
    getField w 2 16 = (match pin with | none => 0 | some _ => 1) ∧
    getField w 2 18 = (match pin with | none => 0 | some p => p.val) ∧ getField w 12 20 = 0) ∧
  (∀ (p : PinId) (e : Edge) (time : Word) (tag : Byte), ∃ w,
    (syncRecord p e time tag).words = [headerWord .sync p.val 0 3 0 0, time, w] ∧
    getField w 8 0 = (match e with | .rising => 0 | .falling => 1) ∧ getField w 16 8 = 0 ∧
    getField w 8 24 = tag.toNat) ∧
  (∀ (u : UnitId) (count : Nat) (time : Word) (tag : Byte), count ≤ 0xFFFFFF → ∃ w,
    (measRecord u count time tag).words = [headerWord .meas u.val 0 3 0 0, time, w] ∧
    getField w 24 0 = count ∧ getField w 8 24 = tag.toNat) ∧
  (∀ (step : Fin 16) (v : Byte) (time : Word) (tag : Byte), ∃ w,
    (markRecord step v time tag).words = [headerWord .mark 0 0 3 0 0, time, w] ∧
    getField w 4 0 = step.val ∧ getField w 4 4 = 0 ∧ getField w 8 8 = v.toNat ∧ getField w 8 16 = 0 ∧
    getField w 8 24 = tag.toNat) ∧
  (∀ f : FireRecord, ∃ w, (trigRecord f).words = [headerWord .trig 0 0 3 0 0, f.time, w] ∧
    getField w 4 0 = f.step.val ∧ getField w 4 4 = 0 ∧
    getField w 2 8 = (match f.cause with | .matched => 0 | .elsed => 1 | .forced => 2) ∧ getField w 14 10 = 0 ∧
    getField w 8 24 = f.tag.toNat) ∧
  ∀ msgs other : Nat, msgs ≤ 65535 → other ≤ 65535 → ∃ w,
    lossWords msgs other = [headerWord .loss 0 0 2 0 0, w] ∧ getField w 16 0 = msgs ∧ getField w 16 16 = other

/-! ### Transmit units -/

/-- R150, R151, R161: SEND appends a transmission to the line's queue and replies the depth; its checks in order.
CANNED_WRITE replaces a slot or, with no data, empties it. TX_FLUSH by the unit's state. (That CANNED_WRITE
disregards bits 1 to 7 of its options byte is the model's choice: log 29, DESIGN CHOICE. A flush of a unit that
LINE_RESET has cut is left out here: log 21.) -/
def Obligations.SendCannedAndFlush : Prop :=
  (∀ (s : State) (i : LineId), collisionReport s i =
    s.setMsg i ((s.line i).msg.map (fun m => { m with flags := { m.flags with coll := true } }))) ∧
  ((∀ (tag pre brk opts d : Byte) (data : List Byte) (i : LineId) (s s1 : State) (p : List Byte),
    p = [quadByte i, pre, brk, opts, d] ++ data → data.length ≤ 255 → TakenAs s ⟨tag, 0x70, p⟩ s1 →
    ((s1.line i).rx.state = .off ∨ (s1.line i).rx.stopPending = true ∨ (s1.line i).cfg.txPermitted = false →
      exec (.send tag p) s = .next (answered s1 s1 ⟨tag, 0x70, p⟩ .state [])) ∧
    ((s1.line i).rx.state ≠ .off → (s1.line i).rx.stopPending = false → (s1.line i).cfg.txPermitted = true →
      ((1 ≤ brk.toNat ∧ brk.toNat ≤ 12) ∨ (opts.getLsbD 0 = true ∧ (s1.line i).cfg.format ≠ .f8A) →
        exec (.send tag p) s = .next (answered s1 s1 ⟨tag, 0x70, p⟩ .range [])) ∧
      (brk.toNat = 0 ∨ 13 ≤ brk.toNat → (opts.getLsbD 0 = true → (s1.line i).cfg.format = .f8A) →
        (4 ≤ (s1.line i).tx.queue.length →
          exec (.send tag p) s = .next (answered s1 s1 ⟨tag, 0x70, p⟩ .full [])) ∧
        ((s1.line i).tx.queue.length < 4 →
          exec (.send tag p) s =
            .next (answered s1
              (s1.setTx i { (s1.line i).tx with
                queue := (s1.line i).tx.queue ++
                  [⟨.host, pre.toNat, brk.toNat, opts.getLsbD 0, d :: data⟩]
                state := if (s1.line i).tx.state = .idle then .wait else (s1.line i).tx.state })
              ⟨tag, 0x70, p⟩ .ok [BitVec.ofNat 8 ((s1.line i).tx.queue.length + 1)]))))) ∧
  ∀ (tag pre brk opts : Byte) (data : List Byte) (c : Fin 8) (i : LineId) (s s1 : State) (p : List Byte),
    p = [BitVec.ofNat 8 c.val, quadByte i, pre, brk, opts] ++ data → data.length ≤ 64 →
    TakenAs s ⟨tag, 0x71, p⟩ s1 →
    ((1 ≤ brk.toNat ∧ brk.toNat ≤ 12) ∨ (opts.getLsbD 0 = true ∧ (s1.line i).cfg.format ≠ .f8A) →
      exec (.cannedWrite tag p) s = .next (answered s1 s1 ⟨tag, 0x71, p⟩ .range [])) ∧
    (brk.toNat = 0 ∨ 13 ≤ brk.toNat → (opts.getLsbD 0 = true → (s1.line i).cfg.format = .f8A) →
      exec (.cannedWrite tag p) s =
        .next (answered s1
          { s1 with
            canned := s1.canned.set c
              (if data = [] then none else some ⟨i, pre.toNat, brk.toNat, opts.getLsbD 0, data⟩) }
          ⟨tag, 0x71, p⟩ .ok []))) ∧
  ∀ (tag : Byte) (i : LineId) (s s1 : State) (u : TxUnit), TakenAs s ⟨tag, 0x72, [quadByte i]⟩ s1 →
    u = (s1.line i).tx →
    (u.state = .idle ∨ u.state = .wait →
      exec (.txFlush tag [quadByte i]) s =
        .next (answered s1 (s1.setTx i { u with state := .idle, queue := [], awaited := [] })
          ⟨tag, 0x72, [quadByte i]⟩ .ok [])) ∧
    (u.state = .preamble ∨ u.state = .brk →
      exec (.txFlush tag [quadByte i]) s =
        .next (answered s1 ((s1.setTx i { u with queue := u.queue.take 1 }).endTx i .aborted)
          ⟨tag, 0x72, [quadByte i]⟩ .ok [])) ∧
    (u.state = .data → u.cut ≠ .reset →
      exec (.txFlush tag [quadByte i]) s =
        .next (answered s1 (s1.setTx i { u with queue := u.queue.take 1, awaited := [], cut := .flushed })
          ⟨tag, 0x72, [quadByte i]⟩ .ok [])) ∧
    (u.state = .hold → u.awaited = [] →
      exec (.txFlush tag [quadByte i]) s =
        .next (answered s1 ((s1.setTx i { u with queue := u.queue.take 1 }).endTx i .ok)
          ⟨tag, 0x72, [quadByte i]⟩ .ok [])) ∧
    (u.state = .hold → u.awaited ≠ [] →
      exec (.txFlush tag [quadByte i]) s =
        .next (answered s1
          ((collisionReport (s1.setTx i { u with queue := u.queue.take 1, collided := true, awaited := [] }) i).endTx
            i .collision)
          ⟨tag, 0x72, [quadByte i]⟩ .ok []))

/-- R160: an outcome: the oldest transmission leaves the queue, its counter moves, the last outcome is set, and
TXEMPTY is raised when the queue is now empty; otherwise the next one waits. -/
def Obligations.OutcomeEndsATransmission : Prop :=
  ∀ (s t : State) (i : LineId) (o : TxOutcome), t = s.endTx i o →
    (t.line i).tx.queue = (s.line i).tx.queue.tail ∧ (t.line i).tx.lastOutcome = some o ∧
    (t.line i).tx.state = (if (s.line i).tx.queue.tail = [] then .idle else .wait) ∧
    t.lineStats i =
      (match o with
        | .ok => { s.lineStats i with txOk := satInc 0xFFFFFFFF (s.lineStats i).txOk }
        | .collision => { s.lineStats i with txCollision := satInc 0xFFFFFFFF (s.lineStats i).txCollision }
        | .aborted => { s.lineStats i with txAborted := satInc 0xFFFFFFFF (s.lineStats i).txAborted }) ∧
    t.link = (if (s.line i).tx.queue.tail = [] then
        s.link.raise { kind := .txEmpty i
                       payload := [quadByte i, match o with | .ok => 0 | .collision => 1 | .aborted => 2] }
      else s.link) ∧
    (t.line i).rx = (s.line i).rx ∧ (t.line i).msg = (s.line i).msg ∧ (t.line i).cfg = (s.line i).cfg ∧
    t.store = s.store ∧ t.seq = s.seq ∧ t.timers = s.timers ∧
    ∀ j, j ≠ i → t.line j = s.line j ∧ t.lineStats j = s.lineStats j

/-- R3, R4, R153 to R157, R159: the oldest transmission takes the line when the receiver offers access, the idle measure
is at the access gap and, but for ADDRESS mode, the assembler is CLOSED, and waits while one of these fails (TAKE_LINE has no effect then:
log 1, DESIGN CHOICE); it then goes through the preamble and the break,
each only when its length is not 0, to its first character, whose echo is awaited. What the transmit data pin shows, bit
time by bit time: mark for the preamble, space for the break and one bit time of mark, the slots of the character in the
order R4 and R156 give, mark for the hold, all through the line's sense, so that the receiver reads back what is driven
(R3). (That it stands at mark while the driver is released is log 28.) -/
def Obligations.TransmissionTakesTheLine : Prop :=
  (∀ (c : LineSettings) (u : TxUnit),
    (∀ n, u.pinAt c n =
      (match u.state, u.onPin with
        | .data, some p => p.sense
        | _, _ => c.sense).drive ((u.bitLevels c)[n]?.getD .mark)) ∧
    (u.state = .idle ∨ u.state = .wait → u.bitLevels c = [] ∧ u.state.driving = false) ∧
    (∀ t rest, u.queue = t :: rest →
      (u.state = .preamble → u.bitLevels c = List.replicate t.preamble .mark ∧ u.state.driving = true) ∧
      (u.state = .brk → u.bitLevels c = List.replicate t.brk .space ++ [.mark] ∧ u.state.driving = true)) ∧
    (∀ p, u.state = .data → u.onPin = some p → u.bitLevels c = p.slots ∧ u.state.driving = true) ∧
    (u.state = .hold → u.bitLevels c = List.replicate c.hold .mark ∧ u.state.driving = true)) ∧
  (∀ (x : Sense) (l : Level), x.apply (x.drive l) = l ∧
    (x.drive l = .high ↔ (x = .normal ∧ l = .mark) ∨ (x = .inverted ∧ l = .space))) ∧
  (∀ (b : Byte) (addr : Bool) (ones : Nat), ones = ((List.range 8).filter b.getLsbD).length →
    ninthBit .f8N b addr = none ∧
    ninthBit .f8E b addr = some (if ones % 2 = 1 then .mark else .space) ∧
    ninthBit .f8O b addr = some (if ones % 2 = 0 then .mark else .space) ∧
    ninthBit .f8A b addr = some (if addr then .mark else .space)) ∧
  (∀ (c : LineSettings) (b : Byte) (ninth : Option Level) (bits : List Level),
    bits = (List.range 8).map (fun k => if b.getLsbD k then Level.mark else .space) →
    sentSlots c b ninth =
      [.space] ++ (match c.bitOrder with
        | .lsbFirst => bits
        | .msbFirst => bits.reverse) ++
      (match ninth with
        | none => []
        | some l => [l]) ++
      (match c.stopBits with
        | .one => [.mark]
        | .two => [.mark, .mark])) ∧
  ∀ (i : LineId) (s : State) (t : Transmission) (rest : List Transmission) (b : Byte) (data : List Byte)
    (u first : TxUnit) (ninth : Option Level),
    u = (s.line i).tx → u.queue = t :: rest → t.data = b :: data → u.sent = 0 → u.collided = false →
    ninth = ninthBit (s.line i).cfg.format b t.addrFirst →
    first = { u with
      state := .data, sent := 1
      onPin := some { data := b, slots := sentSlots (s.line i).cfg b ninth, divisor := (s.line i).cfg.divisor
                      sense := (s.line i).cfg.sense }
      awaited := u.awaited ++ [{ data := b, ninth := ninth, deadline := charTime (s.line i).cfg }] } →
    (u.state = .wait → (s.line i).rx.state = .hunt → (s.line i).rx.startPending = false →
      (s.line i).rx.awaitingMark = false → (s.line i).cfg.accessGap ≤ (s.line i).rx.idle →
      (s.line i).cfg.mode = .address ∨ (s.line i).msg = none →
      (t.preamble ≠ 0 → exec (.takeLine i) s = .next (s.setTx i { u with state := .preamble })) ∧
      (t.preamble = 0 → t.brk ≠ 0 → exec (.takeLine i) s = .next (s.setTx i { u with state := .brk })) ∧
      (t.preamble = 0 → t.brk = 0 → exec (.takeLine i) s = .next (s.setTx i first))) ∧
    (u.state ≠ .wait ∨ (s.line i).rx.state ≠ .hunt ∨ (s.line i).rx.startPending = true ∨
        (s.line i).rx.awaitingMark = true ∨ (s.line i).rx.idle < (s.line i).cfg.accessGap ∨
        ((s.line i).cfg.mode ≠ .address ∧ (s.line i).msg ≠ none) →
      exec (.takeLine i) s = .next s) ∧
    (u.state = .preamble →
      (t.brk ≠ 0 → exec (.preambleEnd i) s = .next (s.setTx i { u with state := .brk })) ∧
      (t.brk = 0 → exec (.preambleEnd i) s = .next (s.setTx i first))) ∧
    (u.state = .brk → exec (.txBreakEnd i) s = .next (s.setTx i first))

/-- R156 to R158, R161 to R163: the end of a character on the pin. The next byte follows at once and its echo is
awaited, or with none left the hold begins; after a collision or a cut the transmission ends instead, without an
outcome after LINE_RESET. With two echoes awaited, the older one's deadline passes at this moment: a collision, with COLL
set on an open message, found after the next byte has begun, or in the hold, where it ends the transmission at once (when
a deadline is due is the model's reading: log 20, DEDUCED). -/
def Obligations.CharacterEndsOnThePin : Prop :=
  ∀ (i : LineId) (s : State) (t : Transmission) (rest : List Transmission) (u : TxUnit) (m : Option Message),
    u = (s.line i).tx → u.state = .data → u.queue = t :: rest →
    m = (s.line i).msg.map (fun m => { m with flags := { m.flags with coll := true } }) →
    (u.cut = .none → u.collided = false →
      (∀ (b : Byte) (next : TxUnit), t.data[u.sent]? = some b → 1 ≤ u.sent →
        next = { u with
          sent := u.sent + 1
          onPin := some
            { data := b
              slots := sentSlots (s.line i).cfg b (ninthBit (s.line i).cfg.format b false)
              divisor := (s.line i).cfg.divisor, sense := (s.line i).cfg.sense }
          awaited := u.awaited ++ [{ data := b, ninth := ninthBit (s.line i).cfg.format b false
                                     deadline := charTime (s.line i).cfg }] } →
        (u.awaited.length ≤ 1 → exec (.txCharacterEnd i) s = .next (s.setTx i next)) ∧
        (2 ≤ u.awaited.length →
          exec (.txCharacterEnd i) s =
            .next (s.setLine i { s.line i with msg := m, tx := { next with collided := true, awaited := [] } }))) ∧
      (t.data.length ≤ u.sent →
        (u.awaited.length ≤ 1 →
          exec (.txCharacterEnd i) s = .next (s.setTx i { u with state := .hold, onPin := none })) ∧
        (2 ≤ u.awaited.length →
          exec (.txCharacterEnd i) s =
            .next ((s.setLine i { s.line i with
              msg := m
              tx := { u with state := .hold, onPin := none, collided := true, awaited := [] } }).endTx i
                .collision)))) ∧
    (u.cut = .none → u.collided = true → exec (.txCharacterEnd i) s = .next (s.endTx i .collision)) ∧
    (u.cut = .flushed →
      exec (.txCharacterEnd i) s = .next (s.endTx i (if u.collided then .collision else .aborted))) ∧
    (u.cut = .reset →
      exec (.txCharacterEnd i) s = .next (s.setTx i { u with
        queue := rest, state := if rest = [] then .idle else .wait, onPin := none, sent := 0, awaited := []
        collided := false, cut := .none }))

/-- R157 to R159: an echo deadline that passes is a collision, at once in TX_HOLD and after the character in TX_DATA,
with a report that sets COLL on an open message; a completed hold ends OK with no echo outstanding and in COLLISION
otherwise. When a deadline can be due is the model's reading (log 20). -/
def Obligations.DeadlinesAndHolds : Prop :=
  ∀ (i : LineId) (s c : State) (u : TxUnit), u = (s.line i).tx → u.collided = false → u.cut = .none →
    c = s.setLine i { s.line i with
      msg := (s.line i).msg.map (fun m => { m with flags := { m.flags with coll := true } })
      tx := { u with collided := true, awaited := [] } } →
    (u.state = .hold → u.awaited = [] → exec (.holdEnd i) s = .next (s.endTx i .ok)) ∧
    (u.state = .hold → u.awaited ≠ [] →
      exec (.holdEnd i) s = .next (c.endTx i .collision) ∧
      exec (.echoDeadline i) s = .next (c.endTx i .collision)) ∧
    (u.state = .data → 2 ≤ u.awaited.length → exec (.echoDeadline i) s = .next c)

/-! ### Frames -/

/-- R17, R42, R56, R69, R95, R124, R144, R164, R174, R105: a request that only reads changes nothing in the part but
the link controller and its counters, whatever its operands; and a command that offers no record leaves every byte of
capture memory as it was. -/
def Obligations.ReadersAndNonProducersStoreNothing : Prop :=
  (∀ (i : Instr) (s t : State), readsOnly i = true → exec i s = .next t → sameButLink s t) ∧
  ∀ (i : Instr) (s t : State), storesNothing i = true → exec i s = .next t → ∀ a : Nat, t.byteAt a = s.byteAt a

/-- R101, R107: the frame of an offer, and of the commands that make one offer of their own: a capture, a completion
by GAP and a break event. A byte outside the words from the region's tail on that the record and a LOSS record before
it take keeps its value; every region but those offered to, and every line, timer unit and filter entry but those
named, is unchanged. -/
def Obligations.OffersStoreAtTheTail : Prop :=
  (∀ (s t : State) (m : QuadSet) (rec : Rec), MemoryCanonical s → RegionsSound s → t = s.offerSet m rec →
    { t with store := s.store, link := s.link } = s ∧
    (∀ id : RegionId, m.getLsbD id.val = false → t.region id = s.region id) ∧
    ∀ a : Nat, (∀ id : RegionId, m.getLsbD id.val = true → ∀ k, k < (s.region id).roomNeeded rec →
        a / 4 ≠ (s.region id).wordAt ((s.region id).advance (s.region id).tail k)) →
      t.byteAt a = s.byteAt a) ∧
  (∀ (tag : Byte) (u : UnitId) (s s1 t : State) (rec : Rec), MemoryCanonical s → RegionsSound s →
    TakenAs s ⟨tag, 0x24, [quadByte u, 2]⟩ s1 →
    rec = measRecord u (s1.timer u).count s1.tb.counter s1.epochTag →
    exec (.timerControlCapture tag [quadByte u, 2]) s = .next t →
    (∀ a : Nat, (∀ id : RegionId, (s1.timer u).mask.getLsbD id.val = true → ∀ k,
        k < (s1.region id).roomNeeded rec →
        a / 4 ≠ (s1.region id).wordAt ((s1.region id).advance (s1.region id).tail k)) →
      t.byteAt a = s.byteAt a) ∧
    (∀ id : RegionId, (s1.timer u).mask.getLsbD id.val = false → t.region id = s.region id) ∧
    t.lines = s.lines ∧ t.filters = s.filters ∧ t.seq = s.seq ∧ t.tb = s.tb ∧ t.pins = s.pins ∧
    t.canned = s.canned ∧ ∀ v, v ≠ u → t.timer v = s.timer v) ∧
  (∀ (i : LineId) (s t : State) (m : Message) (g : FilterAnswer) (rec : Rec) (id : RegionId),
    MemoryCanonical s → RegionsSound s → (s.line i).rx.state = .hunt → (s.line i).rx.startPending = false →
    (s.line i).rx.idleSamples = 15 → (s.line i).rx.idle + 1 = (s.line i).cfg.gapThreshold →
    (s.line i).cfg.gapThreshold ≤ 255 → (s.line i).cfg.mode ≠ .address → (s.line i).msg = some m →
    g = filterAnswer (m.props i) (s.line i).cfg.defaultAction s.filters.toList →
    rec = msgRecord i .gap m g.index g.slice → id = (s.line i).cfg.region → exec (.gapCompletion i) s = .next t →
    (∀ a : Nat, (g.decision = .record → ∀ k, k < (s.region id).roomNeeded rec →
        a / 4 ≠ (s.region id).wordAt ((s.region id).advance (s.region id).tail k)) →
      t.byteAt a = s.byteAt a) ∧
    (∀ j, j ≠ id → t.region j = s.region j) ∧ (∀ j, j ≠ i → t.line j = s.line j ∧ t.lineStats j = s.lineStats j) ∧
    (∀ e, (t.filter e).entry = (s.filter e).entry) ∧ t.tb = s.tb ∧ t.pins = s.pins ∧ t.canned = s.canned ∧
    (s.seq.queue.length < 16 → t.timers = s.timers)) ∧
  ∀ (i : LineId) (s t : State) (rec : Rec) (id : RegionId), MemoryCanonical s → RegionsSound s →
    (s.line i).rx.state = .breakHold → (s.line i).rx.markRun = 7 → (s.line i).tx.judging = false →
    (s.line i).msg = none → id = (s.line i).cfg.region →
    rec = brkRecord i { startTime := (s.line i).rx.startTime, startTag := (s.line i).rx.startTag,
                        duration := (s.line i).rx.tickCount, echo := (s.line i).rx.echo, cut := false } →
    exec (.breakEvent i) s = .next t →
    (∀ a : Nat, (∀ k, k < (s.region id).roomNeeded rec →
        a / 4 ≠ (s.region id).wordAt ((s.region id).advance (s.region id).tail k)) →
      t.byteAt a = s.byteAt a) ∧
    (∀ j, j ≠ id → t.region j = s.region j) ∧ (∀ j, j ≠ i → t.line j = s.line j) ∧
    t.filters = s.filters ∧ t.seq = s.seq ∧ t.timers = s.timers ∧ t.tb = s.tb ∧ t.pins = s.pins ∧
    t.canned = s.canned

/-- R97: words of capture memory that lie in no region are not written, by any command. (POWER_ON, after which the
contents are unspecified, is apart.) -/
def Obligations.MemoryOutsideRegionsUntouched : Prop :=
  ∀ (c : Instr) (s t : State), MemoryCanonical s → RegionsSound s → (∀ b1 b0, c ≠ .powerOn b1 b0) →
    exec c s = .next t → ∀ a : Nat, ¬inSomeRegion s a → t.byteAt a = s.byteAt a

/-! ### Invariants that every step keeps -/

/-- Capture memory keeps its canonical form: addresses strictly rising below 65536, no byte that reads as the blank one
listed. The form is the model's own way to hold the memory, and what an unlisted byte reads as is its choice (log 14,
DESIGN CHOICE); of the spec it rests only on the memory's size. -/
def Obligations.MemoryStaysCanonical : Prop :=
  ∀ s t : State, MemoryCanonical s → step s = .next t → MemoryCanonical t

/-- R149, R153, R157, R169, R172, R79: queues keep their bounds, and a transmit unit's state fits its queue and its
list of awaited echoes; the reply list holds at most five busy replies and the pending notice set at most one notice
for each kind and index. -/
def Obligations.QueuesStayBounded : Prop :=
  (∀ s t : State, QueuesBounded s → TxSound s → step s = .next t → QueuesBounded t ∧ TxSound t) ∧
  ∀ s t : State, BusyBounded s → NoticesDistinct s → step s = .next t → BusyBounded t ∧ NoticesDistinct t

/-- R13, R15, R17, R20: the idle measure fits the receiver's state, each condition belongs to its state, and the
assembler is CLOSED while its receiver is OFF or in SETTLE. -/
def Obligations.ReceiversStaySound : Prop :=
  ∀ s t : State, ReceiverSound s → AssemblerClosed s → step s = .next t → ReceiverSound t ∧ AssemblerClosed t

/-- R83: while the sequencer is ARMED, its current step is below the loaded step count and its occurrence counter is
below that step's count N; the table stays a valid one (R74). -/
def Obligations.SequencerStaysSound : Prop :=
  ∀ s t : State, SequencerSound s → step s = .next t → SequencerSound t

/-- R97, R99, R101, R113, R118: placements stay apart and inside memory, the used words never exceed the region, the
threshold marker says what the used words say, and ARMED holds no TRIG record. It holds in regions that are no ring of
whole records too: there an overwriting region that cannot make room refuses from what it held before (log 19). -/
def Obligations.RegionsStaySound : Prop :=
  ∀ s t : State, RegionsSound s → step s = .next t → RegionsSound t

/-- R101, R127: every region stays a ring of whole records, in which the headers' size fields lead from head to cursor
to tail. -/
def Obligations.RegionsStayWhole : Prop :=
  ∀ s t : State, MemoryCanonical s → RegionsWhole s → step s = .next t → RegionsWhole t

/-- R139: messages equals recorded plus filtered plus lost until one of the four saturates; R137: no counter ever
decreases except by snapshot-and-clear or reset. -/
def Obligations.CountersBalanceAndRise : Prop :=
  (∀ s t : State, StatsBalanced s → step s = .next t → StatsBalanced t) ∧
  ∀ (c : Instr) (s t : State), exec c s = .next t → clearsCounters c = false → (∀ b1 b0, c ≠ .powerOn b1 b0) →
    (∀ b1 b0, c ≠ .pinReset b1 b0) → s.link.sendingReset = false → countersAtMost s t
end

