-- ==== Sys2Proof/Laws/State.lean ====
section
/-! SUPPORT. One lemma per field per update of State, true by rfl, and what an accessor reads after an update. -/

namespace Sys2Proof.Machine

@[simp] theorem State.setLine_lines (s : State) (i : LineId) (l : Line) : (s.setLine i l).lines = s.lines.set i l := rfl
@[simp] theorem State.setLine_tb (s : State) (i : LineId) (l : Line) : (s.setLine i l).tb = s.tb := rfl
@[simp] theorem State.setLine_pins (s : State) (i : LineId) (l : Line) : (s.setLine i l).pins = s.pins := rfl
@[simp] theorem State.setLine_timers (s : State) (i : LineId) (l : Line) : (s.setLine i l).timers = s.timers := rfl
@[simp] theorem State.setLine_filters (s : State) (i : LineId) (l : Line) : (s.setLine i l).filters = s.filters := rfl
@[simp] theorem State.setLine_seq (s : State) (i : LineId) (l : Line) : (s.setLine i l).seq = s.seq := rfl
@[simp] theorem State.setLine_store (s : State) (i : LineId) (l : Line) : (s.setLine i l).store = s.store := rfl
@[simp] theorem State.setLine_stats (s : State) (i : LineId) (l : Line) : (s.setLine i l).stats = s.stats := rfl
@[simp] theorem State.setLine_canned (s : State) (i : LineId) (l : Line) : (s.setLine i l).canned = s.canned := rfl
@[simp] theorem State.setLine_link (s : State) (i : LineId) (l : Line) : (s.setLine i l).link = s.link := rfl
@[simp] theorem State.setLine_free (s : State) (i : LineId) (l : Line) : (s.setLine i l).free = s.free := rfl
@[simp] theorem State.setLine_pending (s : State) (i : LineId) (l : Line) : (s.setLine i l).pending = s.pending := rfl

@[simp] theorem State.setTimer_lines (s : State) (i : UnitId) (t : TimerUnit) : (s.setTimer i t).lines = s.lines := rfl
@[simp] theorem State.setTimer_tb (s : State) (i : UnitId) (t : TimerUnit) : (s.setTimer i t).tb = s.tb := rfl
@[simp] theorem State.setTimer_pins (s : State) (i : UnitId) (t : TimerUnit) : (s.setTimer i t).pins = s.pins := rfl
@[simp] theorem State.setTimer_timers (s : State) (i : UnitId) (t : TimerUnit) : (s.setTimer i t).timers = s.timers.set i t := rfl
@[simp] theorem State.setTimer_filters (s : State) (i : UnitId) (t : TimerUnit) : (s.setTimer i t).filters = s.filters := rfl
@[simp] theorem State.setTimer_seq (s : State) (i : UnitId) (t : TimerUnit) : (s.setTimer i t).seq = s.seq := rfl
@[simp] theorem State.setTimer_store (s : State) (i : UnitId) (t : TimerUnit) : (s.setTimer i t).store = s.store := rfl
@[simp] theorem State.setTimer_stats (s : State) (i : UnitId) (t : TimerUnit) : (s.setTimer i t).stats = s.stats := rfl
@[simp] theorem State.setTimer_canned (s : State) (i : UnitId) (t : TimerUnit) : (s.setTimer i t).canned = s.canned := rfl
@[simp] theorem State.setTimer_link (s : State) (i : UnitId) (t : TimerUnit) : (s.setTimer i t).link = s.link := rfl
@[simp] theorem State.setTimer_free (s : State) (i : UnitId) (t : TimerUnit) : (s.setTimer i t).free = s.free := rfl
@[simp] theorem State.setTimer_pending (s : State) (i : UnitId) (t : TimerUnit) : (s.setTimer i t).pending = s.pending := rfl

@[simp] theorem State.setPin_lines (s : State) (i : PinId) (p : InputPin) : (s.setPin i p).lines = s.lines := rfl
@[simp] theorem State.setPin_tb (s : State) (i : PinId) (p : InputPin) : (s.setPin i p).tb = s.tb := rfl
@[simp] theorem State.setPin_pins (s : State) (i : PinId) (p : InputPin) : (s.setPin i p).pins = s.pins.set i p := rfl
@[simp] theorem State.setPin_timers (s : State) (i : PinId) (p : InputPin) : (s.setPin i p).timers = s.timers := rfl
@[simp] theorem State.setPin_filters (s : State) (i : PinId) (p : InputPin) : (s.setPin i p).filters = s.filters := rfl
@[simp] theorem State.setPin_seq (s : State) (i : PinId) (p : InputPin) : (s.setPin i p).seq = s.seq := rfl
@[simp] theorem State.setPin_store (s : State) (i : PinId) (p : InputPin) : (s.setPin i p).store = s.store := rfl
@[simp] theorem State.setPin_stats (s : State) (i : PinId) (p : InputPin) : (s.setPin i p).stats = s.stats := rfl
@[simp] theorem State.setPin_canned (s : State) (i : PinId) (p : InputPin) : (s.setPin i p).canned = s.canned := rfl
@[simp] theorem State.setPin_link (s : State) (i : PinId) (p : InputPin) : (s.setPin i p).link = s.link := rfl
@[simp] theorem State.setPin_free (s : State) (i : PinId) (p : InputPin) : (s.setPin i p).free = s.free := rfl
@[simp] theorem State.setPin_pending (s : State) (i : PinId) (p : InputPin) : (s.setPin i p).pending = s.pending := rfl

@[simp] theorem State.setFilter_lines (s : State) (i : Fin 32) (f : Filter) : (s.setFilter i f).lines = s.lines := rfl
@[simp] theorem State.setFilter_tb (s : State) (i : Fin 32) (f : Filter) : (s.setFilter i f).tb = s.tb := rfl
@[simp] theorem State.setFilter_pins (s : State) (i : Fin 32) (f : Filter) : (s.setFilter i f).pins = s.pins := rfl
@[simp] theorem State.setFilter_timers (s : State) (i : Fin 32) (f : Filter) : (s.setFilter i f).timers = s.timers := rfl
@[simp] theorem State.setFilter_filters (s : State) (i : Fin 32) (f : Filter) : (s.setFilter i f).filters = s.filters.set i f := rfl
@[simp] theorem State.setFilter_seq (s : State) (i : Fin 32) (f : Filter) : (s.setFilter i f).seq = s.seq := rfl
@[simp] theorem State.setFilter_store (s : State) (i : Fin 32) (f : Filter) : (s.setFilter i f).store = s.store := rfl
@[simp] theorem State.setFilter_stats (s : State) (i : Fin 32) (f : Filter) : (s.setFilter i f).stats = s.stats := rfl
@[simp] theorem State.setFilter_canned (s : State) (i : Fin 32) (f : Filter) : (s.setFilter i f).canned = s.canned := rfl
@[simp] theorem State.setFilter_link (s : State) (i : Fin 32) (f : Filter) : (s.setFilter i f).link = s.link := rfl
@[simp] theorem State.setFilter_free (s : State) (i : Fin 32) (f : Filter) : (s.setFilter i f).free = s.free := rfl
@[simp] theorem State.setFilter_pending (s : State) (i : Fin 32) (f : Filter) : (s.setFilter i f).pending = s.pending := rfl

@[simp] theorem State.setTb_lines (s : State) (v : TimeBase) : (s.setTb v).lines = s.lines := rfl
@[simp] theorem State.setTb_tb (s : State) (v : TimeBase) : (s.setTb v).tb = v := rfl
@[simp] theorem State.setTb_pins (s : State) (v : TimeBase) : (s.setTb v).pins = s.pins := rfl
@[simp] theorem State.setTb_timers (s : State) (v : TimeBase) : (s.setTb v).timers = s.timers := rfl
@[simp] theorem State.setTb_filters (s : State) (v : TimeBase) : (s.setTb v).filters = s.filters := rfl
@[simp] theorem State.setTb_seq (s : State) (v : TimeBase) : (s.setTb v).seq = s.seq := rfl
@[simp] theorem State.setTb_store (s : State) (v : TimeBase) : (s.setTb v).store = s.store := rfl
@[simp] theorem State.setTb_stats (s : State) (v : TimeBase) : (s.setTb v).stats = s.stats := rfl
@[simp] theorem State.setTb_canned (s : State) (v : TimeBase) : (s.setTb v).canned = s.canned := rfl
@[simp] theorem State.setTb_link (s : State) (v : TimeBase) : (s.setTb v).link = s.link := rfl
@[simp] theorem State.setTb_free (s : State) (v : TimeBase) : (s.setTb v).free = s.free := rfl
@[simp] theorem State.setTb_pending (s : State) (v : TimeBase) : (s.setTb v).pending = s.pending := rfl

@[simp] theorem State.setSeq_lines (s : State) (v : Sequencer) : (s.setSeq v).lines = s.lines := rfl
@[simp] theorem State.setSeq_tb (s : State) (v : Sequencer) : (s.setSeq v).tb = s.tb := rfl
@[simp] theorem State.setSeq_pins (s : State) (v : Sequencer) : (s.setSeq v).pins = s.pins := rfl
@[simp] theorem State.setSeq_timers (s : State) (v : Sequencer) : (s.setSeq v).timers = s.timers := rfl
@[simp] theorem State.setSeq_filters (s : State) (v : Sequencer) : (s.setSeq v).filters = s.filters := rfl
@[simp] theorem State.setSeq_seq (s : State) (v : Sequencer) : (s.setSeq v).seq = v := rfl
@[simp] theorem State.setSeq_store (s : State) (v : Sequencer) : (s.setSeq v).store = s.store := rfl
@[simp] theorem State.setSeq_stats (s : State) (v : Sequencer) : (s.setSeq v).stats = s.stats := rfl
@[simp] theorem State.setSeq_canned (s : State) (v : Sequencer) : (s.setSeq v).canned = s.canned := rfl
@[simp] theorem State.setSeq_link (s : State) (v : Sequencer) : (s.setSeq v).link = s.link := rfl
@[simp] theorem State.setSeq_free (s : State) (v : Sequencer) : (s.setSeq v).free = s.free := rfl
@[simp] theorem State.setSeq_pending (s : State) (v : Sequencer) : (s.setSeq v).pending = s.pending := rfl

@[simp] theorem State.setStore_lines (s : State) (v : Store) : (s.setStore v).lines = s.lines := rfl
@[simp] theorem State.setStore_tb (s : State) (v : Store) : (s.setStore v).tb = s.tb := rfl
@[simp] theorem State.setStore_pins (s : State) (v : Store) : (s.setStore v).pins = s.pins := rfl
@[simp] theorem State.setStore_timers (s : State) (v : Store) : (s.setStore v).timers = s.timers := rfl
@[simp] theorem State.setStore_filters (s : State) (v : Store) : (s.setStore v).filters = s.filters := rfl
@[simp] theorem State.setStore_seq (s : State) (v : Store) : (s.setStore v).seq = s.seq := rfl
@[simp] theorem State.setStore_store (s : State) (v : Store) : (s.setStore v).store = v := rfl
@[simp] theorem State.setStore_stats (s : State) (v : Store) : (s.setStore v).stats = s.stats := rfl
@[simp] theorem State.setStore_canned (s : State) (v : Store) : (s.setStore v).canned = s.canned := rfl
@[simp] theorem State.setStore_link (s : State) (v : Store) : (s.setStore v).link = s.link := rfl
@[simp] theorem State.setStore_free (s : State) (v : Store) : (s.setStore v).free = s.free := rfl
@[simp] theorem State.setStore_pending (s : State) (v : Store) : (s.setStore v).pending = s.pending := rfl

@[simp] theorem State.setStats_lines (s : State) (v : Stats) : (s.setStats v).lines = s.lines := rfl
@[simp] theorem State.setStats_tb (s : State) (v : Stats) : (s.setStats v).tb = s.tb := rfl
@[simp] theorem State.setStats_pins (s : State) (v : Stats) : (s.setStats v).pins = s.pins := rfl
@[simp] theorem State.setStats_timers (s : State) (v : Stats) : (s.setStats v).timers = s.timers := rfl
@[simp] theorem State.setStats_filters (s : State) (v : Stats) : (s.setStats v).filters = s.filters := rfl
@[simp] theorem State.setStats_seq (s : State) (v : Stats) : (s.setStats v).seq = s.seq := rfl
@[simp] theorem State.setStats_store (s : State) (v : Stats) : (s.setStats v).store = s.store := rfl
@[simp] theorem State.setStats_stats (s : State) (v : Stats) : (s.setStats v).stats = v := rfl
@[simp] theorem State.setStats_canned (s : State) (v : Stats) : (s.setStats v).canned = s.canned := rfl
@[simp] theorem State.setStats_link (s : State) (v : Stats) : (s.setStats v).link = s.link := rfl
@[simp] theorem State.setStats_free (s : State) (v : Stats) : (s.setStats v).free = s.free := rfl
@[simp] theorem State.setStats_pending (s : State) (v : Stats) : (s.setStats v).pending = s.pending := rfl

@[simp] theorem State.setLink_lines (s : State) (v : Link) : (s.setLink v).lines = s.lines := rfl
@[simp] theorem State.setLink_tb (s : State) (v : Link) : (s.setLink v).tb = s.tb := rfl
@[simp] theorem State.setLink_pins (s : State) (v : Link) : (s.setLink v).pins = s.pins := rfl
@[simp] theorem State.setLink_timers (s : State) (v : Link) : (s.setLink v).timers = s.timers := rfl
@[simp] theorem State.setLink_filters (s : State) (v : Link) : (s.setLink v).filters = s.filters := rfl
@[simp] theorem State.setLink_seq (s : State) (v : Link) : (s.setLink v).seq = s.seq := rfl
@[simp] theorem State.setLink_store (s : State) (v : Link) : (s.setLink v).store = s.store := rfl
@[simp] theorem State.setLink_stats (s : State) (v : Link) : (s.setLink v).stats = s.stats := rfl
@[simp] theorem State.setLink_canned (s : State) (v : Link) : (s.setLink v).canned = s.canned := rfl
@[simp] theorem State.setLink_link (s : State) (v : Link) : (s.setLink v).link = v := rfl
@[simp] theorem State.setLink_free (s : State) (v : Link) : (s.setLink v).free = s.free := rfl
@[simp] theorem State.setLink_pending (s : State) (v : Link) : (s.setLink v).pending = s.pending := rfl

@[simp] theorem State.setRegion_lines (s : State) (i : RegionId) (r : Region) : (s.setRegion i r).lines = s.lines := rfl
@[simp] theorem State.setRegion_tb (s : State) (i : RegionId) (r : Region) : (s.setRegion i r).tb = s.tb := rfl
@[simp] theorem State.setRegion_pins (s : State) (i : RegionId) (r : Region) : (s.setRegion i r).pins = s.pins := rfl
@[simp] theorem State.setRegion_timers (s : State) (i : RegionId) (r : Region) : (s.setRegion i r).timers = s.timers := rfl
@[simp] theorem State.setRegion_filters (s : State) (i : RegionId) (r : Region) : (s.setRegion i r).filters = s.filters := rfl
@[simp] theorem State.setRegion_seq (s : State) (i : RegionId) (r : Region) : (s.setRegion i r).seq = s.seq := rfl
@[simp] theorem State.setRegion_store (s : State) (i : RegionId) (r : Region) : (s.setRegion i r).store = s.store.setRegion i r := rfl
@[simp] theorem State.setRegion_stats (s : State) (i : RegionId) (r : Region) : (s.setRegion i r).stats = s.stats := rfl
@[simp] theorem State.setRegion_canned (s : State) (i : RegionId) (r : Region) : (s.setRegion i r).canned = s.canned := rfl
@[simp] theorem State.setRegion_link (s : State) (i : RegionId) (r : Region) : (s.setRegion i r).link = s.link := rfl
@[simp] theorem State.setRegion_free (s : State) (i : RegionId) (r : Region) : (s.setRegion i r).free = s.free := rfl
@[simp] theorem State.setRegion_pending (s : State) (i : RegionId) (r : Region) : (s.setRegion i r).pending = s.pending := rfl

@[simp] theorem State.setLineStats_lines (s : State) (i : LineId) (g : LineStats) : (s.setLineStats i g).lines = s.lines := rfl
@[simp] theorem State.setLineStats_tb (s : State) (i : LineId) (g : LineStats) : (s.setLineStats i g).tb = s.tb := rfl
@[simp] theorem State.setLineStats_pins (s : State) (i : LineId) (g : LineStats) : (s.setLineStats i g).pins = s.pins := rfl
@[simp] theorem State.setLineStats_timers (s : State) (i : LineId) (g : LineStats) : (s.setLineStats i g).timers = s.timers := rfl
@[simp] theorem State.setLineStats_filters (s : State) (i : LineId) (g : LineStats) : (s.setLineStats i g).filters = s.filters := rfl
@[simp] theorem State.setLineStats_seq (s : State) (i : LineId) (g : LineStats) : (s.setLineStats i g).seq = s.seq := rfl
@[simp] theorem State.setLineStats_store (s : State) (i : LineId) (g : LineStats) : (s.setLineStats i g).store = s.store := rfl
@[simp] theorem State.setLineStats_stats (s : State) (i : LineId) (g : LineStats) : (s.setLineStats i g).stats = { s.stats with lines := s.stats.lines.set i g } := rfl
@[simp] theorem State.setLineStats_canned (s : State) (i : LineId) (g : LineStats) : (s.setLineStats i g).canned = s.canned := rfl
@[simp] theorem State.setLineStats_link (s : State) (i : LineId) (g : LineStats) : (s.setLineStats i g).link = s.link := rfl
@[simp] theorem State.setLineStats_free (s : State) (i : LineId) (g : LineStats) : (s.setLineStats i g).free = s.free := rfl
@[simp] theorem State.setLineStats_pending (s : State) (i : LineId) (g : LineStats) : (s.setLineStats i g).pending = s.pending := rfl

@[simp] theorem State.setCfg_lines (s : State) (i : LineId) (c : LineSettings) : (s.setCfg i c).lines = s.lines.set i { s.line i with cfg := c } := rfl
@[simp] theorem State.setCfg_tb (s : State) (i : LineId) (c : LineSettings) : (s.setCfg i c).tb = s.tb := rfl
@[simp] theorem State.setCfg_pins (s : State) (i : LineId) (c : LineSettings) : (s.setCfg i c).pins = s.pins := rfl
@[simp] theorem State.setCfg_timers (s : State) (i : LineId) (c : LineSettings) : (s.setCfg i c).timers = s.timers := rfl
@[simp] theorem State.setCfg_filters (s : State) (i : LineId) (c : LineSettings) : (s.setCfg i c).filters = s.filters := rfl
@[simp] theorem State.setCfg_seq (s : State) (i : LineId) (c : LineSettings) : (s.setCfg i c).seq = s.seq := rfl
@[simp] theorem State.setCfg_store (s : State) (i : LineId) (c : LineSettings) : (s.setCfg i c).store = s.store := rfl
@[simp] theorem State.setCfg_stats (s : State) (i : LineId) (c : LineSettings) : (s.setCfg i c).stats = s.stats := rfl
@[simp] theorem State.setCfg_canned (s : State) (i : LineId) (c : LineSettings) : (s.setCfg i c).canned = s.canned := rfl
@[simp] theorem State.setCfg_link (s : State) (i : LineId) (c : LineSettings) : (s.setCfg i c).link = s.link := rfl
@[simp] theorem State.setCfg_free (s : State) (i : LineId) (c : LineSettings) : (s.setCfg i c).free = s.free := rfl
@[simp] theorem State.setCfg_pending (s : State) (i : LineId) (c : LineSettings) : (s.setCfg i c).pending = s.pending := rfl

@[simp] theorem State.setRx_lines (s : State) (i : LineId) (r : Receiver) : (s.setRx i r).lines = s.lines.set i { s.line i with rx := r } := rfl
@[simp] theorem State.setRx_tb (s : State) (i : LineId) (r : Receiver) : (s.setRx i r).tb = s.tb := rfl
@[simp] theorem State.setRx_pins (s : State) (i : LineId) (r : Receiver) : (s.setRx i r).pins = s.pins := rfl
@[simp] theorem State.setRx_timers (s : State) (i : LineId) (r : Receiver) : (s.setRx i r).timers = s.timers := rfl
@[simp] theorem State.setRx_filters (s : State) (i : LineId) (r : Receiver) : (s.setRx i r).filters = s.filters := rfl
@[simp] theorem State.setRx_seq (s : State) (i : LineId) (r : Receiver) : (s.setRx i r).seq = s.seq := rfl
@[simp] theorem State.setRx_store (s : State) (i : LineId) (r : Receiver) : (s.setRx i r).store = s.store := rfl
@[simp] theorem State.setRx_stats (s : State) (i : LineId) (r : Receiver) : (s.setRx i r).stats = s.stats := rfl
@[simp] theorem State.setRx_canned (s : State) (i : LineId) (r : Receiver) : (s.setRx i r).canned = s.canned := rfl
@[simp] theorem State.setRx_link (s : State) (i : LineId) (r : Receiver) : (s.setRx i r).link = s.link := rfl
@[simp] theorem State.setRx_free (s : State) (i : LineId) (r : Receiver) : (s.setRx i r).free = s.free := rfl
@[simp] theorem State.setRx_pending (s : State) (i : LineId) (r : Receiver) : (s.setRx i r).pending = s.pending := rfl

@[simp] theorem State.setMsg_lines (s : State) (i : LineId) (m : Option Message) : (s.setMsg i m).lines = s.lines.set i { s.line i with msg := m } := rfl
@[simp] theorem State.setMsg_tb (s : State) (i : LineId) (m : Option Message) : (s.setMsg i m).tb = s.tb := rfl
@[simp] theorem State.setMsg_pins (s : State) (i : LineId) (m : Option Message) : (s.setMsg i m).pins = s.pins := rfl
@[simp] theorem State.setMsg_timers (s : State) (i : LineId) (m : Option Message) : (s.setMsg i m).timers = s.timers := rfl
@[simp] theorem State.setMsg_filters (s : State) (i : LineId) (m : Option Message) : (s.setMsg i m).filters = s.filters := rfl
@[simp] theorem State.setMsg_seq (s : State) (i : LineId) (m : Option Message) : (s.setMsg i m).seq = s.seq := rfl
@[simp] theorem State.setMsg_store (s : State) (i : LineId) (m : Option Message) : (s.setMsg i m).store = s.store := rfl
@[simp] theorem State.setMsg_stats (s : State) (i : LineId) (m : Option Message) : (s.setMsg i m).stats = s.stats := rfl
@[simp] theorem State.setMsg_canned (s : State) (i : LineId) (m : Option Message) : (s.setMsg i m).canned = s.canned := rfl
@[simp] theorem State.setMsg_link (s : State) (i : LineId) (m : Option Message) : (s.setMsg i m).link = s.link := rfl
@[simp] theorem State.setMsg_free (s : State) (i : LineId) (m : Option Message) : (s.setMsg i m).free = s.free := rfl
@[simp] theorem State.setMsg_pending (s : State) (i : LineId) (m : Option Message) : (s.setMsg i m).pending = s.pending := rfl

@[simp] theorem State.setTx_lines (s : State) (i : LineId) (u : TxUnit) : (s.setTx i u).lines = s.lines.set i { s.line i with tx := u } := rfl
@[simp] theorem State.setTx_tb (s : State) (i : LineId) (u : TxUnit) : (s.setTx i u).tb = s.tb := rfl
@[simp] theorem State.setTx_pins (s : State) (i : LineId) (u : TxUnit) : (s.setTx i u).pins = s.pins := rfl
@[simp] theorem State.setTx_timers (s : State) (i : LineId) (u : TxUnit) : (s.setTx i u).timers = s.timers := rfl
@[simp] theorem State.setTx_filters (s : State) (i : LineId) (u : TxUnit) : (s.setTx i u).filters = s.filters := rfl
@[simp] theorem State.setTx_seq (s : State) (i : LineId) (u : TxUnit) : (s.setTx i u).seq = s.seq := rfl
@[simp] theorem State.setTx_store (s : State) (i : LineId) (u : TxUnit) : (s.setTx i u).store = s.store := rfl
@[simp] theorem State.setTx_stats (s : State) (i : LineId) (u : TxUnit) : (s.setTx i u).stats = s.stats := rfl
@[simp] theorem State.setTx_canned (s : State) (i : LineId) (u : TxUnit) : (s.setTx i u).canned = s.canned := rfl
@[simp] theorem State.setTx_link (s : State) (i : LineId) (u : TxUnit) : (s.setTx i u).link = s.link := rfl
@[simp] theorem State.setTx_free (s : State) (i : LineId) (u : TxUnit) : (s.setTx i u).free = s.free := rfl
@[simp] theorem State.setTx_pending (s : State) (i : LineId) (u : TxUnit) : (s.setTx i u).pending = s.pending := rfl

@[simp] theorem State.setOut_lines (s : State) (o : TrigOut) : (s.setOut o).lines = s.lines := rfl
@[simp] theorem State.setOut_tb (s : State) (o : TrigOut) : (s.setOut o).tb = s.tb := rfl
@[simp] theorem State.setOut_pins (s : State) (o : TrigOut) : (s.setOut o).pins = s.pins := rfl
@[simp] theorem State.setOut_timers (s : State) (o : TrigOut) : (s.setOut o).timers = s.timers := rfl
@[simp] theorem State.setOut_filters (s : State) (o : TrigOut) : (s.setOut o).filters = s.filters := rfl
@[simp] theorem State.setOut_seq (s : State) (o : TrigOut) : (s.setOut o).seq = { s.seq with out := o } := rfl
@[simp] theorem State.setOut_store (s : State) (o : TrigOut) : (s.setOut o).store = s.store := rfl
@[simp] theorem State.setOut_stats (s : State) (o : TrigOut) : (s.setOut o).stats = s.stats := rfl
@[simp] theorem State.setOut_canned (s : State) (o : TrigOut) : (s.setOut o).canned = s.canned := rfl
@[simp] theorem State.setOut_link (s : State) (o : TrigOut) : (s.setOut o).link = s.link := rfl
@[simp] theorem State.setOut_free (s : State) (o : TrigOut) : (s.setOut o).free = s.free := rfl
@[simp] theorem State.setOut_pending (s : State) (o : TrigOut) : (s.setOut o).pending = s.pending := rfl

@[simp] theorem State.useFree_lines (s : State) : (s.useFree).lines = s.lines := rfl
@[simp] theorem State.useFree_tb (s : State) : (s.useFree).tb = s.tb := rfl
@[simp] theorem State.useFree_pins (s : State) : (s.useFree).pins = s.pins := rfl
@[simp] theorem State.useFree_timers (s : State) : (s.useFree).timers = s.timers := rfl
@[simp] theorem State.useFree_filters (s : State) : (s.useFree).filters = s.filters := rfl
@[simp] theorem State.useFree_seq (s : State) : (s.useFree).seq = s.seq := rfl
@[simp] theorem State.useFree_store (s : State) : (s.useFree).store = s.store := rfl
@[simp] theorem State.useFree_stats (s : State) : (s.useFree).stats = s.stats := rfl
@[simp] theorem State.useFree_canned (s : State) : (s.useFree).canned = s.canned := rfl
@[simp] theorem State.useFree_link (s : State) : (s.useFree).link = s.link := rfl
@[simp] theorem State.useFree_free (s : State) : (s.useFree).free = s.free + 1 := rfl
@[simp] theorem State.useFree_pending (s : State) : (s.useFree).pending = s.pending := rfl

@[simp] theorem State.line_setLine_same (s : State) (i : LineId) (v : Line) : (s.setLine i v).line i = v := by
  simp [State.line]

theorem State.line_setLine_other (s : State) (i j : LineId) (v : Line) (h : i ≠ j) : (s.setLine i v).line j = s.line j := by
  have h' : i.val ≠ j.val := fun e => h (Fin.ext e)
  simp [State.line, h']

@[simp] theorem State.timer_setTimer_same (s : State) (i : UnitId) (v : TimerUnit) : (s.setTimer i v).timer i = v := by
  simp [State.timer]

theorem State.timer_setTimer_other (s : State) (i j : UnitId) (v : TimerUnit) (h : i ≠ j) : (s.setTimer i v).timer j = s.timer j := by
  have h' : i.val ≠ j.val := fun e => h (Fin.ext e)
  simp [State.timer, h']

@[simp] theorem State.pin_setPin_same (s : State) (i : PinId) (v : InputPin) : (s.setPin i v).pin i = v := by
  simp [State.pin]

theorem State.pin_setPin_other (s : State) (i j : PinId) (v : InputPin) (h : i ≠ j) : (s.setPin i v).pin j = s.pin j := by
  have h' : i.val ≠ j.val := fun e => h (Fin.ext e)
  simp [State.pin, h']

@[simp] theorem State.filter_setFilter_same (s : State) (i : Fin 32) (v : Filter) : (s.setFilter i v).filter i = v := by
  simp [State.filter]

theorem State.filter_setFilter_other (s : State) (i j : Fin 32) (v : Filter) (h : i ≠ j) : (s.setFilter i v).filter j = s.filter j := by
  have h' : i.val ≠ j.val := fun e => h (Fin.ext e)
  simp [State.filter, h']

@[simp] theorem State.region_setRegion_same (s : State) (i : RegionId) (r : Region) :
    (s.setRegion i r).region i = r := by
  simp [State.region, Store.setRegion]

theorem State.region_setRegion_other (s : State) (i j : RegionId) (r : Region) (h : i ≠ j) :
    (s.setRegion i r).region j = s.region j := by
  have h' : i.val ≠ j.val := fun e => h (Fin.ext e)
  simp [State.region, Store.setRegion, h']

@[simp] theorem State.lineStats_setLineStats_same (s : State) (i : LineId) (g : LineStats) :
    (s.setLineStats i g).lineStats i = g := by
  simp [State.lineStats]

theorem State.lineStats_setLineStats_other (s : State) (i j : LineId) (g : LineStats) (h : i ≠ j) :
    (s.setLineStats i g).lineStats j = s.lineStats j := by
  have h' : i.val ≠ j.val := fun e => h (Fin.ext e)
  simp [State.lineStats, h']

@[simp] theorem State.line_setCfg_same (s : State) (i : LineId) (c : LineSettings) :
    (s.setCfg i c).line i = { s.line i with cfg := c } := by
  simp [State.line]

theorem State.line_setCfg_other (s : State) (i j : LineId) (c : LineSettings) (h : i ≠ j) :
    (s.setCfg i c).line j = s.line j := State.line_setLine_other s i j _ h

@[simp] theorem State.line_setRx_same (s : State) (i : LineId) (r : Receiver) :
    (s.setRx i r).line i = { s.line i with rx := r } := by
  simp [State.line]

theorem State.line_setRx_other (s : State) (i j : LineId) (r : Receiver) (h : i ≠ j) :
    (s.setRx i r).line j = s.line j := State.line_setLine_other s i j _ h

@[simp] theorem State.line_setMsg_same (s : State) (i : LineId) (m : Option Message) :
    (s.setMsg i m).line i = { s.line i with msg := m } := by
  simp [State.line]

theorem State.line_setMsg_other (s : State) (i j : LineId) (m : Option Message) (h : i ≠ j) :
    (s.setMsg i m).line j = s.line j := State.line_setLine_other s i j _ h

@[simp] theorem State.line_setTx_same (s : State) (i : LineId) (u : TxUnit) :
    (s.setTx i u).line i = { s.line i with tx := u } := by
  simp [State.line]

theorem State.line_setTx_other (s : State) (i j : LineId) (u : TxUnit) (h : i ≠ j) :
    (s.setTx i u).line j = s.line j := State.line_setLine_other s i j _ h

/-! A part set twice is set to the later value. -/
@[simp] theorem State.setLine_setLine (s : State) (i : LineId) (a b : Line) :
    (s.setLine i a).setLine i b = s.setLine i b := by simp [State.setLine]
@[simp] theorem State.setTimer_setTimer (s : State) (i : UnitId) (a b : TimerUnit) :
    (s.setTimer i a).setTimer i b = s.setTimer i b := by simp [State.setTimer]
@[simp] theorem State.setPin_setPin (s : State) (i : PinId) (a b : InputPin) :
    (s.setPin i a).setPin i b = s.setPin i b := by simp [State.setPin]
@[simp] theorem State.setRegion_setRegion (s : State) (i : RegionId) (a b : Region) :
    (s.setRegion i a).setRegion i b = s.setRegion i b := by simp [State.setRegion, State.setStore, Store.setRegion]

end Sys2Proof.Machine
end

