-- ==== Sys2Proof/Laws/Link.lean ====
section
/-! SUPPORT. The host link: what choosing a frame, raising notices and placing replies leave unchanged, and how the samples of slots and bytes are read. -/

namespace Sys2Proof.Machine

/-- Choosing a frame touches only the wire, the reply list and the pending notices. -/
theorem Link.choose_keeps (k : Link) :
    k.choose = { k with wire := k.choose.wire, replies := k.choose.replies, notices := k.choose.notices } := by
  unfold Link.choose
  split
  · rfl
  · split
    · rfl
    · split <;> rfl

/-- Raising a notice touches only the wire, the reply list and the pending notices. -/
theorem Link.raise_keeps (k : Link) (n : Notice) :
    k.raise n = { k with
      wire := (k.raise n).wire, replies := (k.raise n).replies, notices := (k.raise n).notices } := by
  unfold Link.raise
  split_ifs
  · rw [Link.choose_keeps]
  · rfl

theorem Link.raiseAll_keeps (ns : List Notice) (k : Link) :
    k.raiseAll ns = { k with
      wire := (k.raiseAll ns).wire, replies := (k.raiseAll ns).replies, notices := (k.raiseAll ns).notices } := by
  induction ns generalizing k with
  | nil => rfl
  | cons n t ih =>
    rw [Link.raiseAll, ih (k.raise n), Link.raise_keeps k n]

theorem Link.addReply_keeps (k : Link) (r : Reply) :
    k.addReply r = { k with
      wire := (k.addReply r).wire, replies := (k.addReply r).replies, notices := (k.addReply r).notices } := by
  unfold Link.addReply
  rw [Link.choose_keeps]

@[simp] theorem Link.raise_resetTaken (k : Link) (n : Notice) : (k.raise n).resetTaken = k.resetTaken := by
  rw [Link.raise_keeps]

@[simp] theorem Link.raise_buffer (k : Link) (n : Notice) : (k.raise n).buffer = k.buffer := by
  rw [Link.raise_keeps]

@[simp] theorem Link.raise_rx (k : Link) (n : Notice) : (k.raise n).rx = k.rx := by
  rw [Link.raise_keeps]

@[simp] theorem Link.raise_bytes (k : Link) (n : Notice) : (k.raise n).bytes = k.bytes := by
  rw [Link.raise_keeps]

@[simp] theorem Link.raiseAll_bytes (k : Link) (ns : List Notice) :
    (k.raiseAll ns).bytes = k.bytes := by
  rw [Link.raiseAll_keeps]

@[simp] theorem Link.addReply_bytes (k : Link) (r : Reply) :
    (k.addReply r).bytes = k.bytes := by
  rw [Link.addReply_keeps]

@[simp] theorem Link.raise_mask (k : Link) (n : Notice) : (k.raise n).mask = k.mask := by
  rw [Link.raise_keeps]

@[simp] theorem Link.raiseAll_resetTaken (k : Link) (ns : List Notice) :
    (k.raiseAll ns).resetTaken = k.resetTaken := by
  rw [Link.raiseAll_keeps]

@[simp] theorem Link.raiseAll_buffer (k : Link) (ns : List Notice) : (k.raiseAll ns).buffer = k.buffer := by
  rw [Link.raiseAll_keeps]

@[simp] theorem Link.raiseAll_rx (k : Link) (ns : List Notice) : (k.raiseAll ns).rx = k.rx := by
  rw [Link.raiseAll_keeps]

@[simp] theorem Link.addReply_buffer (k : Link) (r : Reply) : (k.addReply r).buffer = k.buffer := by
  rw [Link.addReply_keeps]

@[simp] theorem Link.addReply_rx (k : Link) (r : Reply) : (k.addReply r).rx = k.rx := by
  rw [Link.addReply_keeps]

/-- Placing a reply changes the link and the counter of free choices alone. -/
theorem placeReply_keeps (before after : State) (r : Reply) :
    placeReply before after r =
      { after with link := (placeReply before after r).link, free := (placeReply before after r).free } := by
  unfold placeReply
  split
  · split_ifs <;> rfl
  · rfl

@[simp] theorem State.handFrame_bytes (s : State) (req : Request) :
    (s.handFrame req).link.bytes = s.link.bytes := by
  simp only [State.handFrame]
  split_ifs
  · rfl
  · simp [State.reportLink]

@[simp] theorem State.badCheck_bytes (s : State) : s.badCheck.link.bytes = s.link.bytes := by
  simp [State.badCheck, State.raise, State.reportLink]

@[simp] theorem State.judgeFrame_bytes (s : State) (low high : Byte) (got : List Byte) :
    (s.judgeFrame low high got).link.bytes = s.link.bytes := by
  unfold State.judgeFrame
  dsimp only
  split_ifs
  · split <;> simp [State.setFrameRx]
  · simp [State.setFrameRx]

/-- Taking a byte leaves the byte receiver alone. -/
@[simp] theorem State.takeByte_bytes (s : State) (b : Byte) :
    (s.takeByte b).link.bytes = s.link.bytes := by
  unfold State.takeByte
  split
  · split_ifs <;> rfl
  · rfl
  · split_ifs <;> rfl
  · split_ifs
    · rfl
    · simp

/-- Samples taken one after another. -/
theorem State.takeLinkSamples_append (s : State) (a b : List PinLevel) :
    s.takeLinkSamples (a ++ b) = (s.takeLinkSamples a).takeLinkSamples b := by
  induction a generalizing s with
  | nil => rfl
  | cons p t ih => exact ih _

/-! ### The byte receiver, slot by slot (R165) -/

/-- The level of a sample of a link pin. -/
def linkLevel (p : PinLevel) : Level := Sense.normal.apply p

/-- What samples 7, 8 and 9 of a slot decide. -/
def slotLevel (x : Nat → PinLevel) : Level := majority ⟨linkLevel (x 6), linkLevel (x 7), linkLevel (x 8)⟩

/-- A slot after the start bit and before the stop bit joins the decided ones. -/
theorem takeSlot (s : State) (x : Nat → PinLevel) {v7 v8 l : Level} {w : Bool} {slots : List Level}
    (h : s.link.bytes = { level := l, awaitingMark := w, current := some ⟨0, v7, v8, slots⟩ }) (h0 : slots ≠ [])
    (h1 : slots.length < 9) :
    s.takeLinkSamples ((List.range 16).map x) = s.setLink { s.link with
      bytes := { level := linkLevel (x 15), awaitingMark := w
                 current := some ⟨0, linkLevel (x 6), linkLevel (x 7), slots ++ [slotLevel x]⟩ } } := by
  have h2 : slots.length + 1 < 10 := by omega
  simp [List.range_succ, State.takeLinkSamples, State.takeLinkSample, ByteReceiver.sample, ByteReceiver.sampleByte,
    State.setLink, slotLevel, linkLevel, h, h0, h2]

/-- The stop bit's slot delivers the byte; the receiver waits for mark when it was decided space. -/
theorem takeStopSlot (s : State) (x : Nat → PinLevel) {v7 v8 l : Level} {w : Bool} {slots : List Level}
    (h : s.link.bytes = { level := l, awaitingMark := w, current := some ⟨0, v7, v8, slots⟩ })
    (h1 : slots.length = 9) :
    s.takeLinkSamples ((List.range 16).map x) = (s.setLink { s.link with
      bytes := { level := linkLevel (x 15), awaitingMark := slotLevel x == .space, current := none } }).takeByte
        (byteOfLevels ((slots.drop 1).take 8)) := by
  have h0 : slots ≠ [] := by intro e; simp [e] at h1
  have h3 (v : Level) : ((slots ++ [v]).drop 1).take 8 = (slots.drop 1).take 8 := by
    rw [List.drop_append_of_le_length (by omega), List.take_append_of_le_length (by simp [h1])]
  simp [-List.drop_one, List.range_succ, State.takeLinkSamples, State.takeLinkSample, ByteReceiver.sample,
    ByteReceiver.sampleByte, State.setLink, slotLevel, linkLevel, h, h0, h1, h3]

/-- A fall whose start bit is decided space begins a byte. -/
theorem takeStartSlot (s : State) (x : Nat → PinLevel) (h : s.link.bytes = ByteReceiver.ready)
    (hf : x 0 = .low) (hs : slotLevel x = .space) :
    s.takeLinkSamples ((List.range 16).map x) = s.setLink { s.link with
      bytes := { level := linkLevel (x 15), awaitingMark := false
                 current := some ⟨0, linkLevel (x 6), linkLevel (x 7), [.space]⟩ } } := by
  have h0 : Sense.normal.apply (x 0) = .space := by rw [hf]; rfl
  simp only [slotLevel, linkLevel] at hs
  simp [List.range_succ, State.takeLinkSamples, State.takeLinkSample, ByteReceiver.sample, ByteReceiver.sampleByte,
    ByteReceiver.sampleIdle, ByteReceiver.ready, State.setLink, linkLevel, h, h0, hs]

/-- Slots that follow one another, each of sixteen samples. -/
def slotSamples (x : Nat → Nat → PinLevel) (n : Nat) : List PinLevel :=
  (List.range n).flatMap (fun j => (List.range 16).map (x j))

theorem slotSamples_succ (x : Nat → Nat → PinLevel) (n : Nat) :
    slotSamples x (n + 1) = slotSamples x n ++ (List.range 16).map (x n) := by
  simp [slotSamples, List.range_succ]

/-- The start bit and `n` data bits of a byte. -/
theorem takeDataSlots (s : State) (x : Nat → Nat → PinLevel) (h : s.link.bytes = ByteReceiver.ready)
    (hf : x 0 0 = .low) (hs : slotLevel (x 0) = .space) (n : Nat) (hn : n ≤ 8) :
    s.takeLinkSamples (slotSamples x (n + 1)) = s.setLink { s.link with
      bytes := { level := linkLevel (x n 15), awaitingMark := false
                 current := some ⟨0, linkLevel (x n 6), linkLevel (x n 7),
                   (List.range (n + 1)).map (fun j => slotLevel (x j))⟩ } } := by
  induction n with
  | zero =>
    have e : slotSamples x (0 + 1) = (List.range 16).map (x 0) := by simp [slotSamples]
    rw [e, takeStartSlot s (x 0) h hf hs]
    simp [hs]
  | succ n ih =>
    rw [slotSamples_succ, State.takeLinkSamples_append, ih (by omega),
      takeSlot _ (x (n + 1)) (slots := (List.range (n + 1)).map (fun j => slotLevel (x j))) rfl (by simp)
        (by simp; omega)]
    simp [State.setLink, List.range_succ]

/-- R165: ten slots of sixteen samples that follow a fall, with the start bit decided space, deliver the byte of the
eight data slots. -/
theorem takeByteSlots (s : State) (x : Nat → Nat → PinLevel) (h : s.link.bytes = ByteReceiver.ready)
    (hf : x 0 0 = .low) (hs : slotLevel (x 0) = .space) :
    s.takeLinkSamples (slotSamples x 10) = (s.setLink { s.link with
      bytes := { level := linkLevel (x 9 15), awaitingMark := slotLevel (x 9) == .space, current := none } }).takeByte
        (byteOfLevels ((List.range 8).map (fun j => slotLevel (x (j + 1))))) := by
  rw [slotSamples_succ, State.takeLinkSamples_append, takeDataSlots s x h hf hs 8 (le_refl 8),
    takeStopSlot _ (x 9) (slots := (List.range 9).map (fun j => slotLevel (x j))) rfl (by simp)]
  rfl

/-- A bit sent without disturbance is decided as it was sent. -/
theorem slotLevel_steady (l : Level) : slotLevel (fun _ => Sense.normal.drive l) = l := by
  cases l <;> rfl

/-- A byte's levels, read back. -/
theorem byteOfLevels_levelsOfByte (b : Byte) : byteOfLevels (levelsOfByte b) = b := by
  revert b; decide +kernel

/-- A byte sent without disturbance to a byte receiver that is ready is taken, and the receiver is ready again. -/
theorem takeLinkSamples_byte (s : State) (b : Byte) (h : s.link.bytes = ByteReceiver.ready) :
    s.takeLinkSamples (linkSamples [b]) = s.takeByte b := by
  have e : linkSamples [b] =
      slotSamples (fun j _ => Sense.normal.drive ((linkLevels b)[j]?.getD .mark)) 10 := rfl
  have same : s.setLink { s.link with bytes := ByteReceiver.ready } = s := by rw [← h]; rfl
  have data : (List.range 8).map (fun j =>
      slotLevel (fun _ => Sense.normal.drive ((linkLevels b)[j + 1]?.getD .mark))) = levelsOfByte b := by
    simp [List.range_succ, slotLevel_steady, linkLevels, levelsOfByte]
  rw [e, takeByteSlots s _ h rfl rfl]
  simp only [data, byteOfLevels_levelsOfByte]
  exact congrArg (fun t : State => t.takeByte b) same

/-- Bytes sent back to back without disturbance are taken one by one. -/
theorem takeLinkSamples_bytes (l : List Byte) (s : State) (h : s.link.bytes = ByteReceiver.ready) :
    s.takeLinkSamples (linkSamples l) = l.foldl State.takeByte s := by
  induction l generalizing s with
  | nil => rfl
  | cons b t ih =>
    have e : linkSamples (b :: t) = linkSamples [b] ++ linkSamples t := by simp [linkSamples]
    rw [e, State.takeLinkSamples_append, takeLinkSamples_byte s b h, ih _ (by simpa using h), List.foldl_cons]

end Sys2Proof.Machine
end

