-- ==== Sys2Proof/Laws/Memory.lean ====
section
/-! SUPPORT. Capture memory: every write keeps the canonical form, a written byte is read back, every other byte keeps its value; words and runs of words. -/

namespace Sys2Proof.Machine

theorem Memory.wfFrom_mono {lo hi : Nat} {m : List Host.Cell} (h : lo ≤ hi) (w : Memory.wfFrom hi m = true) :
    Memory.wfFrom lo m = true := by
  cases m with
  | nil => rfl
  | cons c t =>
    obtain ⟨a, v⟩ := c
    simp only [Memory.wfFrom, Bool.and_eq_true, decide_eq_true_eq] at w ⊢
    exact ⟨⟨⟨by omega, w.1.1.2⟩, w.1.2⟩, w.2⟩

theorem Memory.insert_wfFrom {m : List Host.Cell} {lo a : Nat} {v : Byte} (w : Memory.wfFrom lo m = true)
    (h : lo ≤ a) (ha : a < memBytes) : Memory.wfFrom lo (Memory.insert m a v) = true := by
  induction m generalizing lo with
  | nil =>
    by_cases hv : v = blankByte <;> simp [Memory.insert, Memory.wfFrom, hv, h, ha]
  | cons c t ih =>
    obtain ⟨b, x⟩ := c
    have w' := w
    simp only [Memory.wfFrom, Bool.and_eq_true, decide_eq_true_eq] at w'
    obtain ⟨⟨⟨h1, h2⟩, h3⟩, h4⟩ := w'
    unfold Memory.insert
    split_ifs with c1 c2 c3 c4
    · exact w
    · simp only [Memory.wfFrom, Bool.and_eq_true, decide_eq_true_eq]
      exact ⟨⟨⟨h, ha⟩, by simp [c2]⟩, ⟨⟨⟨by omega, h2⟩, h3⟩, h4⟩⟩
    · exact Memory.wfFrom_mono (by omega) h4
    · simp only [Memory.wfFrom, Bool.and_eq_true, decide_eq_true_eq]
      exact ⟨⟨⟨h1, h2⟩, by simp [c4]⟩, h4⟩
    · simp only [Memory.wfFrom, Bool.and_eq_true, decide_eq_true_eq]
      exact ⟨⟨⟨h1, h2⟩, h3⟩, ih h4 (by omega)⟩

/-- A byte below every listed address reads blank. -/
theorem Memory.readByte_below {m : List Host.Cell} {lo a : Nat} (w : Memory.wfFrom lo m = true) (h : a < lo) :
    Memory.readByte m a = blankByte := by
  induction m generalizing lo with
  | nil => rfl
  | cons c t ih =>
    obtain ⟨b, x⟩ := c
    simp only [Memory.wfFrom, Bool.and_eq_true, decide_eq_true_eq] at w
    have : a ≠ b := by omega
    simp [Memory.readByte, this, ih w.2 (by omega)]

theorem Memory.readByte_insert_from {m : List Host.Cell} {lo a : Nat} {v : Byte} (w : Memory.wfFrom lo m = true)
    (k : Nat) : Memory.readByte (Memory.insert m a v) k = if k = a then v else Memory.readByte m k := by
  induction m generalizing lo with
  | nil =>
    by_cases hv : v = blankByte <;> by_cases hk : k = a <;> simp [Memory.insert, Memory.readByte, hv, hk]
  | cons c t ih =>
    obtain ⟨b, x⟩ := c
    simp only [Memory.wfFrom, Bool.and_eq_true, decide_eq_true_eq] at w
    obtain ⟨⟨⟨h1, h2⟩, h3⟩, h4⟩ := w
    have hb : a = b → k = b → Memory.readByte t k = blankByte := fun _ e =>
      Memory.readByte_below h4 (by omega)
    have hn : a < b → k = a → Memory.readByte ((b, x) :: t) k = blankByte := fun h e =>
      Memory.readByte_below (lo := b) (by simp [Memory.wfFrom, h2, h3, h4]) (by omega)
    by_cases c1 : a < b
    · by_cases c2 : v = blankByte
      · by_cases hk : k = a
        · simp only [Memory.insert, c1, c2, hk, if_true]; rw [← hk]; exact hn c1 hk
        · simp [Memory.insert, c1, c2, hk]
      · by_cases hk : k = a <;> simp [Memory.insert, c1, c2, hk, Memory.readByte]
    · by_cases c3 : a = b
      · by_cases c4 : v = blankByte
        · by_cases hk : k = a
          · simp only [Memory.insert, c3, c4, hk, if_true]
            have := hb c3 (hk.trans c3)
            rw [hk, c3] at this
            simpa using this
          · have hk' : k ≠ b := fun e => hk (e.trans c3.symm)
            simp [Memory.insert, c3, c4, hk', Memory.readByte]
        · simp only [Memory.insert, c3, c4, if_true, if_false, Memory.readByte]
          simp only [lt_irrefl, if_false, Memory.readByte]
          by_cases hk : k = b <;> simp [hk]
      · simp only [Memory.insert, c1, c3, if_false, Memory.readByte, ih h4]
        by_cases hk : k = b
        · have : k ≠ a := fun e => c3 (e.symm.trans hk)
          have : b ≠ a := fun e => c3 e.symm
          simp [hk, this]
        · simp [hk]

/-- Writing keeps the canonical form. -/
theorem Memory.writeByte_wf {m : List Host.Cell} (w : Memory.wf m = true) (a : Nat) (v : Byte) :
    Memory.wf (Memory.writeByte m a v) = true := by
  unfold Memory.writeByte
  split_ifs with h
  · exact Memory.insert_wfFrom w (Nat.zero_le _) h
  · exact w

/-- What every byte reads after a write. -/
theorem Memory.readByte_writeByte {m : List Host.Cell} (w : Memory.wf m = true) (a k : Nat) (v : Byte) :
    Memory.readByte (Memory.writeByte m a v) k =
      if k = a ∧ a < memBytes then v else Memory.readByte m k := by
  unfold Memory.writeByte
  split_ifs with h1 h2 h2
  · rw [Memory.readByte_insert_from w]; simp [h2.1]
  · rw [Memory.readByte_insert_from w]; simp_all
  · omega
  · rfl

theorem Memory.writeBytes_wf (bs : List Byte) {m : List Host.Cell} (w : Memory.wf m = true) (a : Nat) :
    Memory.wf (Memory.writeBytes m a bs) = true := by
  induction bs generalizing m a with
  | nil => exact w
  | cons b t ih => exact ih (Memory.writeByte_wf w a b) (a + 1)

/-- A byte outside the written run keeps its value. -/
theorem Memory.readByte_writeBytes_outside (bs : List Byte) {m : List Host.Cell} (w : Memory.wf m = true)
    (a k : Nat) (h : k < a ∨ a + bs.length ≤ k) :
    Memory.readByte (Memory.writeBytes m a bs) k = Memory.readByte m k := by
  induction bs generalizing m a with
  | nil => rfl
  | cons b t ih =>
    simp only [List.length_cons] at h
    rw [Memory.writeBytes, ih (Memory.writeByte_wf w a b) (a + 1) (by omega), Memory.readByte_writeByte w]
    have : ¬(k = a ∧ a < memBytes) := by omega
    simp [this]

/-- A byte of the written run reads as written. -/
theorem Memory.readByte_writeBytes_inside (bs : List Byte) {m : List Host.Cell} (w : Memory.wf m = true)
    (a k : Nat) (hk : k < bs.length) (hm : a + bs.length ≤ memBytes) :
    Memory.readByte (Memory.writeBytes m a bs) (a + k) = bs[k] := by
  induction bs generalizing m a k with
  | nil => simp at hk
  | cons b t ih =>
    simp only [List.length_cons] at hk hm
    cases k with
    | zero =>
      rw [Memory.writeBytes, Memory.readByte_writeBytes_outside t (Memory.writeByte_wf w a b) _ _ (by omega),
        Memory.readByte_writeByte w]
      have : a < memBytes := by omega
      simp [this]
    | succ j =>
      have e : a + (j + 1) = a + 1 + j := by omega
      rw [Memory.writeBytes, e, ih (Memory.writeByte_wf w a b) (a + 1) j (by omega) (by omega)]
      rfl

theorem Memory.writeWord_wf {m : List Host.Cell} (w : Memory.wf m = true) (k : Nat) (v : Word) :
    Memory.wf (Memory.writeWord m k v) = true := Memory.writeBytes_wf _ w _

theorem Memory.readByte_writeWord_outside {m : List Host.Cell} (w : Memory.wf m = true) (k a : Nat) (v : Word)
    (h : a / 4 ≠ k) : Memory.readByte (Memory.writeWord m k v) a = Memory.readByte m a := by
  refine Memory.readByte_writeBytes_outside _ w _ _ ?_
  simp only [wordBytes, List.length_cons, List.length_nil]
  omega

/-- A written word reads back. -/
theorem Memory.readWord_writeWord_same {m : List Host.Cell} (w : Memory.wf m = true) (k : Nat) (v : Word)
    (hk : k < Config.captureWords) : Memory.readWord (Memory.writeWord m k v) k = v := by
  have hm : 4 * k + (wordBytes v).length ≤ memBytes := by
    simp only [wordBytes, List.length_cons, List.length_nil, memBytes]; omega
  have r : ∀ j (hj : j < (wordBytes v).length),
      Memory.readByte (Memory.writeWord m k v) (4 * k + j) = (wordBytes v)[j] :=
    fun j hj => Memory.readByte_writeBytes_inside (wordBytes v) w (4 * k) j hj hm
  unfold Memory.readWord
  have hl : (wordBytes v).length = 4 := rfl
  rw [r 3 (by omega), r 2 (by omega), r 1 (by omega)]
  have r0 : Memory.readByte (Memory.writeWord m k v) (4 * k) = (wordBytes v)[0] := r 0 (by omega)
  rw [r0]
  simp only [wordBytes, List.getElem_cons_succ, List.getElem_cons_zero]
  ext i hi
  simp only [BitVec.getElem_append, BitVec.getElem_extractLsb']
  split_ifs <;> (rw [← BitVec.getLsbD_eq_getElem]; congr 1; omega)

/-- A word other than the written one keeps its value. -/
theorem Memory.readWord_writeWord_other {m : List Host.Cell} (w : Memory.wf m = true) (k j : Nat) (v : Word)
    (h : j ≠ k) : Memory.readWord (Memory.writeWord m k v) j = Memory.readWord m j := by
  have r : ∀ i, i < 4 → Memory.readByte (Memory.writeWord m k v) (4 * j + i) = Memory.readByte m (4 * j + i) :=
    fun i hi => Memory.readByte_writeWord_outside w k _ v (by omega)
  unfold Memory.readWord
  have r0 : Memory.readByte (Memory.writeWord m k v) (4 * j) = Memory.readByte m (4 * j) := r 0 (by omega)
  rw [r 3 (by omega), r 2 (by omega), r 1 (by omega), r0]

theorem Region.writeWords_wf (r : Region) (ws : List Word) {m : List Host.Cell} (w : Memory.wf m = true) (p : Nat) :
    Memory.wf (r.writeWords m p ws) = true := by
  induction ws generalizing m p with
  | nil => exact w
  | cons v t ih => exact ih (Memory.writeWord_wf w _ v) _

end Sys2Proof.Machine
end

