-- ==== Sys2Proof/Laws/Store.lean ====
section
/-! SUPPORT. The rings of the capture store: positions, chains of headers, and what an offer leaves unchanged. -/

namespace Sys2Proof.Machine

/-! ### Positions and chains (R101, R127) -/

@[simp] theorem Region.advance_advance (r : Region) (p n m : Nat) :
    r.advance (r.advance p n) m = r.advance p (n + m) := by
  simp [Region.advance, Nat.add_assoc]

theorem Region.advance_lt {r : Region} (h : r.size ≠ 0) (p n : Nat) : r.advance p n < r.words := by
  refine Nat.mod_lt _ ?_
  simp only [Region.words, Config.blockWords]
  omega

theorem Region.advance_zero {r : Region} {p : Nat} (h : p < r.words) : r.advance p 0 = p := by
  simp [Region.advance, Nat.mod_eq_of_lt h]

/-- Positions and headers depend on a region's placement alone. -/
theorem Region.chain_congr {m : List Host.Cell} {r t : Region} (hb : t.base = r.base) (hs : t.size = r.size)
    (l : List Nat) (p : Nat) : t.chain m p l ↔ r.chain m p l := by
  induction l generalizing p with
  | nil => simp [Region.chain]
  | cons z rest ih =>
    have ha : t.advance p z = r.advance p z := by simp [Region.advance, Region.words, hs]
    simp only [Region.chain, ih, ha, Region.headerAt, Region.wordAt, hb]

/-- A chain goes on where its first part ends. -/
theorem Region.chain_append {m : List Host.Cell} {r : Region} (a b : List Nat) {p : Nat} (hp : p < r.words)
    (h : r.chain m p (a ++ b)) : r.chain m (r.advance p a.sum) b := by
  have key : ∀ (a : List Nat) (p : Nat), r.advance p 0 = p → r.chain m p (a ++ b) →
      r.chain m (r.advance p a.sum) b := by
    intro a
    induction a with
    | nil => intro p hp h; simpa [hp] using h
    | cons z rest ih =>
      intro p _ h
      obtain ⟨_, _, h3⟩ := h
      have := ih _ (by simp) h3
      simpa using this
  exact key a p (Region.advance_zero hp) h

theorem Region.chain_sizes {m : List Host.Cell} {r : Region} (l : List Nat) {p : Nat} (h : r.chain m p l) :
    ∀ z ∈ l, 2 ≤ z := by
  induction l generalizing p with
  | nil => simp
  | cons z rest ih =>
    obtain ⟨_, h2, h3⟩ := h
    intro x hx
    rcases List.mem_cons.1 hx with rfl | hx
    · exact h2
    · exact ih h3 x hx

/-! ### What an offer leaves (R105) -/

/-- Judging the threshold changes the marker alone. -/
theorem Region.judgeThreshold_keeps (id : RegionId) (r : Region) :
    (r.judgeThreshold id).1 = { r with crossed := (r.judgeThreshold id).1.crossed } := by
  unfold Region.judgeThreshold
  split_ifs <;> rfl

/-- What a written record does to a region beyond the ring itself. -/
theorem Region.afterWrite_keeps (id : RegionId) (kind : RecKind) (r : Region) :
    (r.afterWrite id kind).1 =
      { r with
        state := (r.afterWrite id kind).1.state, quota := (r.afterWrite id kind).1.quota
        hasTrig := (r.afterWrite id kind).1.hasTrig, short := (r.afterWrite id kind).1.short
        trigMissing := (r.afterWrite id kind).1.trigMissing } := by
  unfold Region.afterWrite
  split
  · simp only [Region.freeze]; split_ifs <;> rfl
  · simp only [Region.freeze]; split_ifs <;> rfl
  · simp only [Region.freeze]; split_ifs <;> rfl
  all_goals rfl

/-- An offer changes the store and the link alone. -/
theorem State.offer_keeps (s : State) (id : RegionId) (rec : Rec) :
    s.offer id rec = { s with store := (s.offer id rec).store, link := (s.offer id rec).link } := rfl

/-- Offers to a set of regions change the store and the link alone. -/
theorem State.offerSet_keeps (s : State) (m : QuadSet) (rec : Rec) :
    s.offerSet m rec = { s with store := (s.offerSet m rec).store, link := (s.offerSet m rec).link } := rfl

/-- The region an offer goes to is as Placed.offer says. -/
theorem State.offer_region_self (s : State) (id : RegionId) (rec : Rec) :
    (s.offer id rec).region id = (Placed.offer id ⟨s.store.mem, s.region id⟩ rec).placed.region := by
  simp [State.offer, Store.offer, State.region]

/-- An offer to one region leaves the other regions. -/
theorem State.offer_region_other (s : State) {id j : RegionId} (h : j ≠ id) (rec : Rec) :
    (s.offer id rec).region j = s.region j := by
  have h' : id.val ≠ j.val := fun e => h (Fin.ext e.symm)
  simp [State.offer, Store.offer, State.region, h']

@[simp] theorem State.offer_mem (s : State) (id : RegionId) (rec : Rec) :
    (s.offer id rec).store.mem = (Placed.offer id ⟨s.store.mem, s.region id⟩ rec).placed.mem := rfl

theorem State.offer_link (s : State) (id : RegionId) (rec : Rec) :
    (s.offer id rec).link = s.link.raiseAll (Placed.offer id ⟨s.store.mem, s.region id⟩ rec).notices := rfl

@[simp] theorem State.offer_resetTaken (s : State) (id : RegionId) (rec : Rec) :
    (s.offer id rec).link.resetTaken = s.link.resetTaken := by
  rw [State.offer_link, Link.raiseAll_resetTaken]

@[simp] theorem State.offer_buffer (s : State) (id : RegionId) (rec : Rec) :
    (s.offer id rec).link.buffer = s.link.buffer := by
  rw [State.offer_link, Link.raiseAll_buffer]

@[simp] theorem State.offerSet_resetTaken (s : State) (m : QuadSet) (rec : Rec) :
    (s.offerSet m rec).link.resetTaken = s.link.resetTaken := by
  simp only [State.offerSet, quadList, Store.offerSet, Store.offer]
  split_ifs <;> simp

@[simp] theorem State.offerSet_buffer (s : State) (m : QuadSet) (rec : Rec) :
    (s.offerSet m rec).link.buffer = s.link.buffer := by
  simp only [State.offerSet, quadList, Store.offerSet, Store.offer]
  split_ifs <;> simp

end Sys2Proof.Machine
end

