-- ==== Sys2Proof/Laws/Blocks.lean ====
section
/-! SUPPORT. Payload bytes that name members, flags and sets, and what the sequencer's, the transmit units' and the assemblers' shared operations leave unchanged. -/

namespace Sys2Proof.Machine

/-! ### Payload bytes -/

/-- Two little-endian bytes read back. -/
theorem natOfBytes_bytesOfNat_two {n : Nat} (h : n < 65536) : natOfBytes (bytesOfNat 2 n) = n := by
  simp [bytesOfNat, natOfBytes]
  omega

@[simp] theorem pinOfByte_ofNat (p : PinId) : pinOfByte (BitVec.ofNat 8 p.val) = some p := by
  revert p; decide

@[simp] theorem filterIndex_ofNat (e : Fin 32) : filterIndex (BitVec.ofNat 8 e.val) = some e := by
  revert e; decide

theorem quadSetOfByte_of_toNat {m : QuadSet} {b : Byte} (h : b.toNat = m.toNat) : quadSetOfByte b = some m := by
  have : m.toNat < 16 := m.isLt
  simp [quadSetOfByte, h, this]

theorem quadSetOfByte_above {b : Byte} (h : 16 ≤ b.toNat) : quadSetOfByte b = none := by
  simp [quadSetOfByte]
  omega

theorem flagOfByte_of_toNat {f : FlagId} {b : Byte} (h : b.toNat = f.val) : flagOfByte b = some f := by
  have : f.val < 8 := f.isLt
  simp [flagOfByte, h, this]

theorem flagOfByte_above {b : Byte} (h : 8 ≤ b.toNat) : flagOfByte b = none := by
  simp [flagOfByte]
  omega

/-! ### The sequencer -/

/-- Stopping a guard changes the timer units alone. -/
theorem State.stopGuard_keeps (s : State) (st : Option StepRecord) :
    s.stopGuard st = { s with timers := (s.stopGuard st).timers } := by
  unfold State.stopGuard
  split <;> rfl

@[simp] theorem State.stopGuard_seq (s : State) (st : Option StepRecord) : (s.stopGuard st).seq = s.seq := by
  rw [State.stopGuard_keeps]

@[simp] theorem State.stopGuard_link (s : State) (st : Option StepRecord) : (s.stopGuard st).link = s.link := by
  rw [State.stopGuard_keeps]

/-- An event that finds a place joins the queue and changes nothing else (R79). -/
theorem State.joinQueue_of_place {s : State} (h : s.seq.queue.length < 16) (e : SeqEvent) :
    s.joinQueue e = { s with seq := { s.seq with queue := s.seq.queue ++ [e] } } := by
  have h' : s.seq.queue.length < Config.eventPlaces := h
  simp [State.joinQueue, h', State.setSeq]

/-- An event that joins or is lost touches the sequencer, the timer units, the counters and the link alone. -/
theorem State.joinQueue_keeps (s : State) (e : SeqEvent) :
    s.joinQueue e =
      { s with
        seq := (s.joinQueue e).seq, timers := (s.joinQueue e).timers, stats := (s.joinQueue e).stats
        link := (s.joinQueue e).link } := by
  unfold State.joinQueue
  split_ifs
  · rfl
  · simp only [State.seqFault, State.raise, State.stopGuard]
    split <;> rfl
  · rfl

@[simp] theorem State.joinQueue_resetTaken (s : State) (e : SeqEvent) :
    (s.joinQueue e).link.resetTaken = s.link.resetTaken := by
  unfold State.joinQueue
  split_ifs
  · rfl
  · simp [State.seqFault, State.raise]
  · rfl

@[simp] theorem State.fire_resetTaken (s : State) (c : FireCause) :
    (s.fire c).link.resetTaken = s.link.resetTaken := by
  simp [State.fire, State.raise]

/-- A fire touches the sequencer, the store and the link alone. -/
theorem State.fire_keeps (s : State) (c : FireCause) :
    s.fire c = { s with seq := (s.fire c).seq, store := (s.fire c).store, link := (s.fire c).link } := rfl

/-! ### Lines -/

/-- Reporting to a LINE group changes that group alone. -/
theorem State.report_keeps (s : State) (i : LineId) (f : LineStats → LineStats) :
    s.report i f = { s with stats := { s.stats with lines := s.stats.lines.set i (f (s.lineStats i)) } } := rfl

@[simp] theorem State.endTx_resetTaken (s : State) (i : LineId) (o : TxOutcome) :
    (s.endTx i o).link.resetTaken = s.link.resetTaken := by
  simp only [State.endTx]
  split_ifs
  · simp [State.raise, State.report_keeps]
  · simp [State.report_keeps]

/-- Ending a transmission touches the lines, the counters and the link alone. -/
theorem State.endTx_keeps (s : State) (i : LineId) (o : TxOutcome) :
    s.endTx i o =
      { s with lines := (s.endTx i o).lines, stats := (s.endTx i o).stats, link := (s.endTx i o).link } := by
  simp only [State.endTx]
  split_ifs <;> rfl

/-- A collision report changes the open message's COLL flag alone (R24). -/
theorem collisionReport_eq (s : State) (i : LineId) :
    collisionReport s i =
      match (s.line i).msg with
      | none => s
      | some m => s.setMsg i (some { m with flags := { m.flags with coll := true } }) := rfl

/-- A completion touches the lines, the filters' hit counters, the sequencer's queue and state, the timer units, the
store, the counters and the link alone (R29 to R33). -/
theorem completeMessage_keeps (s : State) (i : LineId) (cause : EndCause) (m : Message) :
    completeMessage s i cause m =
      { s with
        lines := (completeMessage s i cause m).lines, filters := (completeMessage s i cause m).filters
        seq := (completeMessage s i cause m).seq, timers := (completeMessage s i cause m).timers
        store := (completeMessage s i cause m).store, stats := (completeMessage s i cause m).stats
        link := (completeMessage s i cause m).link } := by
  have sent : ∀ (t : State) (flags : FlagSet), (sendFlags t i flags).tb = t.tb ∧
      (sendFlags t i flags).pins = t.pins ∧ (sendFlags t i flags).canned = t.canned ∧
      (sendFlags t i flags).free = t.free ∧ (sendFlags t i flags).pending = t.pending := by
    intro t flags
    unfold sendFlags
    split_ifs
    · exact ⟨rfl, rfl, rfl, rfl, rfl⟩
    · rw [State.joinQueue_keeps]
      exact ⟨rfl, rfl, rfl, rfl, rfl⟩
  have offered : ∀ (t : State) (a : FilterAnswer), (offerMessage t i cause m a).1.tb = t.tb ∧
      (offerMessage t i cause m a).1.pins = t.pins ∧ (offerMessage t i cause m a).1.canned = t.canned ∧
      (offerMessage t i cause m a).1.free = t.free ∧ (offerMessage t i cause m a).1.pending = t.pending := by
    intro t a
    unfold offerMessage
    split <;> exact ⟨rfl, rfl, rfl, rfl, rfl⟩
  have h : (completeMessage s i cause m).tb = s.tb ∧ (completeMessage s i cause m).pins = s.pins ∧
      (completeMessage s i cause m).canned = s.canned ∧ (completeMessage s i cause m).free = s.free ∧
      (completeMessage s i cause m).pending = s.pending := by
    simp only [completeMessage, State.setMsg_tb, State.setMsg_pins, State.setMsg_canned, State.setMsg_free,
      State.setMsg_pending]
    refine ⟨(sent _ _).1.trans (offered _ _).1, (sent _ _).2.1.trans (offered _ _).2.1,
      (sent _ _).2.2.1.trans (offered _ _).2.2.1, (sent _ _).2.2.2.1.trans (offered _ _).2.2.2.1,
      (sent _ _).2.2.2.2.trans (offered _ _).2.2.2.2⟩
  obtain ⟨h1, h2, h3, h4, h5⟩ := h
  generalize completeMessage s i cause m = t at *
  obtain ⟨lines, tb, pins, timers, filters, seq, store, stats, canned, link, free, pending⟩ := t
  simp only at h1 h2 h3 h4 h5
  subst h1 h2 h3 h4 h5
  rfl

end Sys2Proof.Machine
end

