-- ==== Sys2Proof/Laws/Requests.lean ====
section
/-! SUPPORT. One lemma for each way a request ends: not taken, TAG, LENGTH, or handed to its owning block; the bytes that name a member. -/

namespace Sys2Proof.Machine

/-- The handler takes a request exactly when it can. -/
theorem takeRequest_eq (s : State) (req : Request) :
    takeRequest s req = if canTake s req then some (taken s req) else none := by
  obtain ⟨lines, tb, pins, timers, filters, seq, store, stats, canned, link, free, pending⟩ := s
  obtain ⟨baud1, baud0, ⟨level, awaiting, current⟩, rx, buffer, replies, wire, notices, mask, cause, resetTaken⟩ := link
  cases resetTaken
  · cases buffer with
    | nil =>
      cases current <;> by_cases h1 : rx = FrameRx.hunt <;>
        simp [takeRequest, canTake, taken, h1]
    | cons b rest =>
      simp only [takeRequest, canTake, taken]
      by_cases h1 : b.inHandling <;> by_cases h2 : b.request = req <;> simp [h1, h2]
  · simp [takeRequest, canTake]

theorem serve_not_taken {s : State} {req : Request} (fits : Nat → Bool) (act : State → List Byte → Answer)
    (h : canTake s req = false) : serve s req fits act = s := by
  simp [serve, takeRequest_eq, h]

/-- The reply's origin is the handler's when no RESET has been taken by the request. -/
theorem serve_taken {s : State} {req : Request} (fits : Nat → Bool) (act : State → List Byte → Answer)
    (h : canTake s req = true) :
    serve s req fits act =
      placeReply (taken s req) (judgeRequest (taken s req) req fits act).state
        { tag := req.tag, code := replyCode req.tag req.code,
          payload := (judgeRequest (taken s req) req fits act).status.code ::
            (judgeRequest (taken s req) req fits act).content,
          origin := if (judgeRequest (taken s req) req fits act).state.link.resetTaken then .resetReply
            else .handler } := by
  simp [serve, takeRequest_eq, h]

theorem taken_resetTaken {s : State} {req : Request} (h : canTake s req = true) :
    (taken s req).link.resetTaken = false := by
  simp only [canTake, Bool.and_eq_true, Bool.not_eq_true'] at h
  unfold taken
  split <;> exact h.1

/-- A request with tag 0 is answered TAG and nothing else happens (R131, R170). -/
theorem serve_tag_zero {s : State} {req : Request} (fits : Nat → Bool) (act : State → List Byte → Answer)
    (h : canTake s req = true) (ht : req.tag = 0) :
    serve s req fits act = answered (taken s req) (taken s req) req .tag [] := by
  simp [serve_taken fits act h, judgeRequest, ht, Answer.refuse, taken_resetTaken h, answered, replyTo]

/-- A request of a length its code does not admit is answered LENGTH and nothing else happens (R131, R170). -/
theorem serve_length {s : State} {req : Request} (fits : Nat → Bool) (act : State → List Byte → Answer)
    (h : canTake s req = true) (ht : req.tag ≠ 0) (hf : fits req.payload.length = false) :
    serve s req fits act = answered (taken s req) (taken s req) req .length [] := by
  have ht' : ¬req.tag = 0#8 := ht
  simp [serve_taken fits act h, judgeRequest, ht', hf, Answer.refuse, taken_resetTaken h, answered, replyTo]

/-- A request that passes both judgements is answered as its owning block says. -/
theorem serve_act {s : State} {req : Request} (fits : Nat → Bool) (act : State → List Byte → Answer)
    (h : canTake s req = true) (ht : req.tag ≠ 0) (hf : fits req.payload.length = true) {a : Answer}
    (ha : act (taken s req) req.payload = a) (hr : a.state.link.resetTaken = false) :
    serve s req fits act = answered (taken s req) a.state req a.status a.content := by
  subst ha
  have ht' : ¬req.tag = 0#8 := ht
  simp [serve_taken fits act h, judgeRequest, ht', hf, hr, answered, replyTo]

theorem TakenAs.resetTaken {s s1 : State} {req : Request} (h : TakenAs s req s1) : s1.link.resetTaken = false :=
  h.2.2 ▸ taken_resetTaken h.2.1

/-- A request of an admitted length is answered as its owning block says, in the block's own words. -/
theorem serve_answered {s s1 : State} {req : Request} {fits : Nat → Bool} {act : State → List Byte → Answer}
    (h : TakenAs s req s1) (hf : fits req.payload.length = true) {a : Answer} (ha : act s1 req.payload = a)
    (hr : a.state.link.resetTaken = false) :
    serve s req fits act = answered s1 a.state req a.status a.content := by
  obtain ⟨h1, h2, rfl⟩ := h
  exact serve_act fits act h2 h1 hf ha hr

/-- A request that its owning block refuses, or that changes nothing. -/
theorem serve_unchanged {s s1 : State} {req : Request} {fits : Nat → Bool} {act : State → List Byte → Answer}
    (h : TakenAs s req s1) (hf : fits req.payload.length = true) {st : Status} {content : List Byte}
    (ha : act s1 req.payload = ⟨s1, st, content⟩) :
    serve s req fits act = answered s1 s1 req st content :=
  serve_answered h hf ha h.resetTaken

@[simp] theorem quadOfByte_quadByte (i : Fin 4) : quadOfByte (quadByte i) = some i := by
  revert i; decide

theorem quadOfByte_above {b : Byte} (h : 4 ≤ b.toNat) : quadOfByte b = none := by
  have : ¬b.toNat < 4 := by omega
  simp [quadOfByte, this]

end Sys2Proof.Machine
end

