-- ==== Sys2Proof/Machine/Timing.lean ====
section
/-! DEFINITION. The spec's durations as formulas in reference clock periods. The machine does not count reference periods (log 4): these say how far apart the commands that end a stretch of time come. -/

namespace Sys2Proof.Machine.Timing

/-- FREF, nominally 24 MHz (00_scope, Time). -/
def refHz : Nat := 24000000

/-- R38: reference periods in a tick. -/
def tickPeriods (tickDiv : Nat) : Nat := tickDiv + 1

/-- R3: reference periods between samples of a line. -/
def samplePeriods (divisor : Nat) : Nat := divisor + 1

/-- R1: reference periods in a bit time of a line. -/
def bitPeriods (divisor : Nat) : Nat := 16 * samplePeriods divisor

/-- R1: reference periods in a character time of a line. -/
def characterPeriods (c : LineSettings) : Nat := charTime c * bitPeriods c.divisor

/-- R44: reference periods between samples of an event input pin. -/
def pinSamplePeriods : Nat := 8

/-- R165: P, chosen by the straps BAUD1 and BAUD0. -/
def strapP : PinLevel → PinLevel → Nat
  | .low, .low => 51
  | .low, .high => 25
  | .high, .low => 12
  | .high, .high => 3

/-- R165: reference periods in a link bit time. -/
def linkBitPeriods (p : Nat) : Nat := 4 * (p + 1)

/-- R165: the reference clock edge at which link sample `k` is taken: the first at or after k x (P + 1) / 4. -/
def linkSampleEdge (p k : Nat) : Nat := (k * (p + 1) + 3) / 4

/-- R165: reference periods in a link frame of a number of bytes, ten bits each. -/
def linkFramePeriods (p bytes : Nat) : Nat := bytes * 10 * linkBitPeriods p

/-- R168: the gap that discards a frame: 20 ms. -/
def gapPeriods : Nat := refHz / 50

/-- R177: reference periods within which the sequencer takes its next event. -/
def eventPeriods : Nat := 8

/-- R178: the last decided slot of a format. -/
def lastDecidedSlot (f : Format) : Nat := if f.hasNinth then 10 else 9

end Sys2Proof.Machine.Timing
end

