-- ==== Sys2Proof/WellFormed.lean ====
section
/-! DEFINITION. Well-formed commands: the operand limits that the link frame and the samples of a pin set (R130, R131, R165). -/

namespace Sys2Proof

/-- A frame's payload holds 0 to 1024 bytes (R130). -/
def payloadOk (payload : List Byte) : Bool := payload.length ≤ 1024

/-- The operand checks of each command. -/
def WellFormed : Instr → Bool
  | .unknownCode _ code payload => payloadOk payload && !requestCodes.contains code
  | .timerControlStart _ payload =>
    payloadOk payload && timerOperation payload != some 1 && timerOperation payload != some 2
  | .timerControlStop _ payload => payloadOk payload && timerOperation payload == some 1
  | .timerControlCapture _ payload => payloadOk payload && timerOperation payload == some 2
  | .ident _ payload | .reset _ payload | .noticeMask _ payload | .lineConfig _ payload
  | .lineStart _ payload | .lineStop _ payload | .lineReset _ payload | .lineStatus _ payload
  | .timeConfig _ payload | .timeRead _ payload | .inputConfig _ payload | .timerConfig _ payload
  | .timerRead _ payload | .filterWrite _ payload | .filterEnable _ payload | .filterRead _ payload
  | .seqLoad _ payload | .seqArm _ payload | .seqDisarm _ payload | .seqForce _ payload
  | .seqStatus _ payload | .seqMasks _ payload | .flagsWrite _ payload | .outputConfig _ payload
  | .regionConfig _ payload | .regionStart _ payload | .regionStop _ payload | .regionClear _ payload
  | .regionStatus _ payload | .read _ payload | .release _ payload | .rewind _ payload
  | .statsRead _ payload | .send _ payload | .cannedWrite _ payload | .txFlush _ payload
  | .txStatus _ payload => payloadOk payload
  | .frameLengthError samples => !samples.isEmpty
  | .frameReceived samples => !samples.isEmpty
  | .inputEdge _ samples => !samples.isEmpty
  | .powerOn _ _ | .pinReset _ _ | .softReset | .settleEnd _ | .startBitFall _
  | .startBitValidation _ _ | .characterDelivered _ _ | .breakRecognised _ _ | .breakEvent _
  | .gapCompletion _ | .counterWrap | .timerExpiry _ | .eventTaken | .pulseEnd | .takeLine _
  | .preambleEnd _ | .txBreakEnd _ | .txCharacterEnd _ | .echoDeadline _ | .holdEnd _
  | .frameTimeout | .frameSent | .tick | .lineSample _ _ => true

end Sys2Proof
end

