-- ==== Sys2Proof/Tests/Slice0.lean ====
section
/-! SUPPORT. Tests: the refused ill-formed commands, the spec's worked values, one small step for each family, and for every statement with hypotheses a state and operands that meet them. -/

namespace Sys2Proof.Tests

open Sys2Proof.Machine

-- One theorem after another: kernel evaluations side by side need a thread each.
set_option Elab.async false

/-! ### Small states -/

/-- The state after a command. -/
def after (c : Instr) (s : State) : State :=
  match exec c s with
  | .next t => t
  | .fault f => nomatch f
  | .refused _ => s

/-- The payload of the reply or notice on the wire. -/
def wirePayload (s : State) : List Byte :=
  match s.link.wire with
  | some (.reply r) => r.payload
  | some (.notice n) => n.payload
  | none => []

/-- What an idle transmitter sends in answer to a request. -/
def answerTo (c : Instr) (s : State) : List Byte := wirePayload (after c s)

/-- A request with tag 1 that the handler can take, and a condition on the part with it in handling. -/
def witnessed (s : State) (code : Byte) (p : List Byte) (cond : State → Bool) : Bool :=
  canTake s ⟨1, code, p⟩ && cond (taken s ⟨1, code, p⟩)

/-- A witnessed request meets the statements' hypothesis TakenAs, with the condition in the state it names. -/
theorem takenAs_of_witnessed (s : State) (code : Byte) (p : List Byte) (cond : State → Bool)
    (h : witnessed s code p cond = true) :
    ∃ s1, TakenAs s ⟨1, code, p⟩ s1 ∧ cond s1 = true :=
  ⟨taken s ⟨1, code, p⟩, ⟨by show (1 : Byte) ≠ 0; decide, (Bool.and_eq_true_iff.mp h).1, rfl⟩, (Bool.and_eq_true_iff.mp h).2⟩

/-- State.reset with line 0 changed. -/
def withRx (r : Receiver) : State := State.reset.setRx 0 r
def withTx (u : TxUnit) : State := State.reset.setTx 0 u
def withRegion0 (r : Region) : State := State.reset.setRegion 0 r
def withSeq (q : Sequencer) : State := State.reset.setSeq q
def withTimer0 (t : TimerUnit) : State := State.reset.setTimer 0 t
def withPin0 (p : InputPin) : State := State.reset.setPin 0 p
def withLink (k : Link) : State := State.reset.setLink k

/-- A receiver in HUNT after SETTLE. -/
def hunting : Receiver := { Receiver.off with state := .hunt, idle := 12 }

/-- A one-byte transmission with no preamble and no break. -/
def oneByte : Transmission := { source := .host, preamble := 0, brk := 0, addrFirst := false, data := [0x55] }

/-- A character without any condition. -/
def plainChar (b : Byte) : Character :=
  { data := b, addr := false, parity := false, framing := false, noise := false, startTime := 7, startTag := 0,
    echo := false, ticks := 20 }

/-- The open message of one plain character. -/
def openOne : Message := Message.add LineSettings.reset (openMessage LineSettings.reset (plainChar 0x41)) (plainChar 0x41)

/-- A region of two blocks in RUN, empty. -/
def running : Region := { Region.reset with size := 2, state := .run }

/-- A step with no guard that fires on F0. -/
def fireStep : StepRecord :=
  { mask := 1, sense := .any, occurrences := 1, guard := none, matchKind := .go, matchTarget := .fire,
    elseTarget := none, action := .none, timing := .each, consume := false }

/-- The same with guard unit 2 and an else exit to step 0. -/
def guardedStep : StepRecord := { fireStep with guard := some 2, elseTarget := some (.step 0) }

/-- An ARMED sequencer over a table. -/
def armedWith (table : List StepRecord) : Sequencer := { Sequencer.reset with state := .armed, table := table }

/-- Sixteen events. -/
def fullQueue : List SeqEvent := List.replicate 16 (.host 1 0)

/-- A reply and a notice. -/
def someReply : Reply := { tag := 9, code := 0x81, payload := [0], origin := .handler }
def someNotice : Notice := { kind := .linkFault, payload := [1, 0, 0, 0] }

/-! ### Ill-formed commands are refused -/

theorem test_payload_above_1024_is_ill_formed :
    WellFormed (.ident 1 (List.replicate 1025 0)) = false ∧ WellFormed (.ident 1 (List.replicate 1024 0)) = true ∧
      WellFormed (.unknownCode 1 0xAA (List.replicate 1025 0)) = false ∧
      WellFormed (.timerControlStart 1 (List.replicate 1025 0)) = false := by decide +kernel

theorem test_known_code_is_ill_formed_as_unknown :
    WellFormed (.unknownCode 1 0x10 []) = false ∧ WellFormed (.unknownCode 1 0x04 []) = true := by decide +kernel

theorem test_timer_operation_of_another_row_is_ill_formed :
    WellFormed (.timerControlStart 1 [0, 1]) = false ∧ WellFormed (.timerControlStart 1 [0, 2]) = false ∧
      WellFormed (.timerControlStop 1 [0, 0]) = false ∧ WellFormed (.timerControlCapture 1 [0, 1]) = false ∧
      WellFormed (.timerControlStart 1 [0, 3]) = true ∧ WellFormed (.timerControlStop 1 [0, 1]) = true ∧
      WellFormed (.timerControlCapture 1 [0, 2]) = true := by decide +kernel

theorem test_link_row_without_samples_is_ill_formed :
    WellFormed (.frameReceived []) = false ∧ WellFormed (.frameLengthError []) = false ∧
      WellFormed (.frameReceived [.low]) = true ∧ WellFormed (.frameLengthError [.high]) = true := by decide +kernel

theorem test_input_edge_without_samples_is_ill_formed :
    WellFormed (.inputEdge 0 []) = false ∧ WellFormed (.inputEdge 0 [.high]) = true := by decide +kernel

/-! ### Worked values of the spec -/

/-- The check of R130 over the nine bytes 31 to 39: a value known for this register, start and polynomial. -/
theorem test_check_of_nine_digits :
    frameCheck [0x31, 0x32, 0x33, 0x34, 0x35, 0x36, 0x37, 0x38, 0x39] = 0x29B1 := by decide +kernel

/-- Section 7.1's worked MSG record. -/
theorem test_worked_msg_record :
    (msgRecord 1 .address
      { startTime := 1000000, startTag := 0, ticks := 6000, lastEnd := 5713, received := 5,
        stored := [0x21, 0x05, 0x10, 0x33], lead0 := 0x21, lead1 := some 0x05
        flags := { par := false, frm := false, noi := true, trunc := true, own := false, coll := false,
                   addrStart := true, orphan := false, statOvf := false }
        status := [{ position := 3, kind := .noise }] } (some 2) 256).words =
      [0x108C0651, 1000000, 5713, 0x04040005, 0x33100521, 0x0203] := by decide +kernel

/-- R130: a frame occupies seven bytes for an empty payload and 1031 for a full one. -/
theorem test_frame_sizes :
    (frameBytes 1 1 []).length = 7 ∧ (frameBytes 1 1 (List.replicate 1024 0)).length = 1031 := by decide +kernel

/-- R11: at the reset settings the back-date is 8 x 156 / 24 ticks. -/
theorem test_back_date : backDate 155 23 = 52 := by decide

/-- R1: character times at the ends of the format settings. -/
theorem test_character_times :
    charTime LineSettings.reset = 10 ∧
      charTime { LineSettings.reset with format := .f8A, stopBits := .two } = 12 := by decide

/-- R165: the reference periods of a link bit at each strap setting. -/
theorem test_link_bit_times :
    Timing.linkBitPeriods (Timing.strapP .low .low) = 208 ∧ Timing.linkBitPeriods (Timing.strapP .low .high) = 104 ∧
      Timing.linkBitPeriods (Timing.strapP .high .low) = 52 ∧
      Timing.linkBitPeriods (Timing.strapP .high .high) = 16 := by decide

/-- No row of the table has bits: no word spells a command. -/
theorem test_no_word_spells_a_command :
    decodeTableWord 8 0xC3 = none ∧ State.reset.withFetchWord 8 0xC3 = State.reset := by decide +kernel

/-! ### One small step for each family -/

theorem test_power_on_and_pin_reset :
    (after (.powerOn .high .low) (withRx hunting)).lines = State.reset.lines ∧
      (after (.pinReset .low .high) State.reset).link.cause = .pin ∧
      (after (.pinReset .low .high) State.reset).link.baud0 = .high := by decide +kernel

theorem test_reset_request_and_soft_reset :
    answerTo (.reset 5 []) State.reset = [0] ∧
      (after .softReset (after (.reset 5 []) State.reset)).link.cause = .request ∧
      after .softReset State.reset = State.reset := by decide +kernel

theorem test_ident :
    answerTo (.ident 1 []) State.reset = [0, 0x1A, 34, 0x42, 4, 4, 0x00, 0x40, 32, 16, 8, 4, 8, 0] ∧
      answerTo (.ident 1 [7]) State.reset = [3] ∧ answerTo (.ident 0 []) State.reset = [8] := by decide +kernel

theorem test_notice_mask :
    (after (.noticeMask 1 [0x7E]) State.reset).link.notices = [] ∧ answerTo (.noticeMask 1 [0x80]) State.reset = [4] := by
  decide +kernel

theorem test_unknown_code : answerTo (.unknownCode 1 0x04 []) State.reset = [2] := by decide +kernel

theorem test_line_config :
    (after (.lineConfig 1 [2, 0xFF, 0x0F, 3, 2, 1, 1, 2, 255, 0, 1, 3, 1, 1, 255, 16]) State.reset).line 2 =
        { Line.reset with cfg :=
          { divisor := 4095, format := .f8A, stopBits := .two, bitOrder := .msbFirst, sense := .inverted,
            mode := .addressGap, gapThreshold := 255, maxLength := 256, region := 3, defaultAction := .drop,
            txPermitted := true, accessGap := 255, hold := 16 } } ∧
      answerTo (.lineConfig 1 [2, 0x00, 0x10, 3, 2, 1, 1, 2, 255, 0, 1, 3, 1, 1, 255, 16]) State.reset = [4] := by
  decide +kernel

theorem test_line_start_stop_reset_status :
    answerTo (.lineStart 1 [0]) (withRx hunting) = [5] ∧ answerTo (.lineStop 1 [0]) State.reset = [5] ∧
      (after (.lineStop 1 [0]) (withRx hunting)).lines = State.reset.lines ∧
      (after (.lineReset 1 [0]) (withRx hunting)).lines = State.reset.lines ∧
      answerTo (.lineStatus 1 [0]) (withRx { hunting with awaitingMark := true, level := .space }) =
        [0, 0, 2, 12, 12, 0] := by decide +kernel

theorem test_time_requests :
    (after (.timeConfig 1 [255]) State.reset).tb.tickDiv = 255 ∧ answerTo (.timeConfig 1 [0]) (withRx hunting) = [5] ∧
      answerTo (.timeRead 1 []) (State.reset.setTb { tickDiv := 23, counter := 0x01020304, epoch := 0x0506 }) =
        [0, 6, 5, 4, 3, 2, 1] := by decide +kernel

theorem test_input_config_takes_the_first_enable_edge :
    (after (.inputConfig 1 [0, 3, 0, 7, 0]) (withPin0 { InputPin.reset with accepted := some .high })).seq.queue =
        [.input 0 7] ∧
      answerTo (.inputConfig 1 [2, 3, 0, 7, 0]) State.reset = [4] := by decide +kernel

theorem test_timer_requests :
    (after (.timerConfig 1 [3, 1, 0, 0, 1, 7, 15]) State.reset).timer 3 =
        { TimerUnit.reset with mode := .repeating, flag := some 7, mask := 15 } ∧
      ((after (.timerControlStart 1 [0, 0]) (withTimer0 { TimerUnit.reset with generation := 255 })).timer 0).generation =
        0 ∧
      ((after (.timerControlStop 1 [0, 1]) (withTimer0 { TimerUnit.reset with state := .expired })).timer 0).state = .idle ∧
      ((after (.timerControlCapture 1 [0, 2]) (withTimer0 { TimerUnit.reset with count := 9 })).timer 0).capture = 9 ∧
      answerTo (.timerRead 1 [0]) (withTimer0 { TimerUnit.reset with state := .running, count := 0x010203 }) =
        [0, 0, 1, 3, 2, 1, 0, 0, 0, 0] := by decide +kernel

theorem test_filter_requests :
    ((after (.filterWrite 1 [31, 3, 15, 1, 2, 3, 4, 0x6A, 7, 1, 0, 255, 255, 0, 1]) State.reset).filter 31).entry =
        { enabled := true, lines := 15, first := ⟨1, 2⟩, second := some ⟨3, 4⟩, address := .notStart, lenMin := 1,
          lenMax := 65535, errorClass := .errored, origin := .foreignOnly, action := .drop, flag := some 7,
          slice := 256 } ∧
      answerTo (.filterEnable 1 [1, 0, 0, 0x80, 0, 0, 0, 0]) State.reset = [0, 1, 0, 0, 0x80] ∧
      answerTo (.filterRead 1 [0]) State.reset = [0, 0, 0, 0, 0, 0, 0, 0, 0x80, 0xFF, 0, 0, 0, 0, 0, 0] := by
  decide +kernel

theorem test_sequencer_load_and_arm :
    (after (.seqLoad 1 [1, 0, 1, 0, 0xFF, 0x40, 0, 0, 0, 0, 0, 0]) State.reset).seq.table = [fireStep] ∧
      answerTo (.seqLoad 1 [0, 0, 1, 0, 0xFF, 0x40, 0, 0, 0, 0, 0, 0]) State.reset = [7, 0] ∧
      answerTo (.seqLoad 1 [1, 0, 1, 0, 0xFF, 0x40, 0, 9, 0, 0, 0, 0]) State.reset = [4] ∧
      answerTo (.seqArm 1 []) State.reset = [7] ∧
      (after (.seqArm 1 []) (withSeq { Sequencer.reset with table := [guardedStep] })).seq.guardGen = 1 := by
  decide +kernel

theorem test_sequencer_requests :
    (after (.seqDisarm 1 []) (withSeq (armedWith [fireStep]))).seq.state = .idle ∧
      (after (.seqForce 1 []) ((withSeq (armedWith [fireStep])).setLink { State.reset.link with mask := 0 })).seq.lastFire = some ⟨0, .forced, 0, 0⟩ ∧
      answerTo (.seqForce 1 []) State.reset = [5] ∧
      answerTo (.seqStatus 1 []) State.reset = [0, 0, 0, 0, 0, 0, 0, 0, 0xFF, 0, 0, 0, 0, 0, 0, 0, 0, 0, 0, 0] ∧
      (after (.seqMasks 1 [15, 8]) State.reset).seq.trigMask = 15 ∧
      (after (.flagsWrite 1 [0x81, 0x02]) State.reset).seq.flags = 0x81 ∧
      (after (.outputConfig 1 [1, 0, 255, 255]) State.reset).seq.out.width = 65535 := by decide +kernel

theorem test_region_requests :
    (after (.regionConfig 1 [3, 254, 2, 0, 1, 128, 0]) State.reset).region 3 =
        { Region.reset with base := 254, size := 2, policy := .stop, threshold := 128, state := .stopped } ∧
      answerTo (.regionConfig 1 [3, 255, 2, 0, 1, 128, 0]) State.reset = [4] ∧
      ((after (.regionStart 1 [0, 1, 5, 0]) (withRegion0 { running with state := .stopped })).region 0).quota = 5 ∧
      ((after (.regionStop 1 [0]) (withRegion0 running)).region 0).state = .stopped ∧
      ((after (.regionClear 1 [0]) (withRegion0 { running with state := .frozen })).region 0).state = .stopped := by
  decide +kernel

/-- A MEAS record of three words is written, read and released. -/
theorem test_capture_read_release_rewind :
    (let s := (withRegion0 running).offer 0 (measRecord 2 0x010203 0x0A0B0C0D 5)
     s.store.mem.length = 10 ∧
      answerTo (.read 1 [0, 32, 1]) s =
        [0, 0, 1, 0, 0x25, 0x03, 0, 0, 0x0D, 0x0C, 0x0B, 0x0A, 3, 2, 1, 5] ∧
      answerTo (.release 1 [0, 0, 0]) s = [0, 0, 0] ∧
      answerTo (.release 1 [0, 0, 0]) (s.setRegion 0 { s.region 0 with cursor := 3, unread := 0 }) = [0, 1, 0] ∧
      ((after (.rewind 1 [0]) (s.setRegion 0 { s.region 0 with cursor := 3, unread := 0 })).region 0).unread = 3) := by
  decide +kernel

theorem test_region_status_and_stats :
    answerTo (.regionStatus 1 [0]) (withRegion0 running) =
        [0, 0, 2, 0, 0, 2, 0, 0, 0, 0, 0, 0, 0, 0, 0, 0, 0, 0, 0, 0, 0, 0] ∧
      (answerTo (.statsRead 1 [10, 0]) State.reset) =
        [0, 10, 1, 0, 0, 0, 0, 0, 0, 0, 0, 0, 0, 0, 0, 0, 0, 0, 0, 0, 0, 0] ∧
      answerTo (.statsRead 1 [11, 0]) State.reset = [4] := by decide +kernel

theorem test_transmit_requests :
    answerTo (.send 1 [0, 0, 0, 0, 0x55]) State.reset = [5] ∧
      answerTo (.send 1 [0, 0, 0, 0, 0x55])
          ((withRx hunting).setCfg 0 { LineSettings.reset with txPermitted := true }) = [0, 1] ∧
      (after (.cannedWrite 1 [7, 3, 1, 13, 0, 0xAA]) State.reset).canned[7] = some ⟨3, 1, 13, false, [0xAA]⟩ ∧
      answerTo (.cannedWrite 1 [7, 3, 1, 12, 0, 0xAA]) State.reset = [4] ∧
      ((after (.txFlush 1 [0]) (withTx { TxUnit.reset with state := .wait, queue := [oneByte] })).line 0).tx =
        TxUnit.reset ∧
      answerTo (.txStatus 1 [0]) State.reset = [0, 0, 0, 0, 3] := by decide +kernel

theorem test_line_samples :
    ((after (.settleEnd 0) (withRx { hunting with state := .settle, markRun := 191, idle := 11 })).line 0).rx =
        hunting ∧
      ((after (.startBitFall 0) (withRx hunting)).line 0).rx.startPending = true ∧
      ((after (.startBitFall 0) (withRx { hunting with level := .space })).line 0).rx.startPending = false ∧
      ((after (.lineSample 0 .low) (withRx hunting)).line 0).rx.startPending = true ∧
      ((after (.startBitValidation 0 .low) (withRx
        { hunting with startPending := true, frameSamples := 8, vote7 := .space, vote8 := .mark })).line 0).rx.noise =
        true := by decide +kernel

/-- The last stop sample of the frame of 0x41 (slots 1 to 9) opens a message. -/
theorem test_character_delivered :
    (let r := { hunting with state := .char, idle := 0, frameSamples := 159
                             slots := [.mark, .space, .space, .space, .space, .space, .mark, .space, .mark] }
     let t := after (.characterDelivered 0 .high) (withRx r)
     ((t.line 0).msg.map (·.stored)) = some [0x41] ∧ (t.lineStats 0).chars = 1) := by decide +kernel

theorem test_break_rows :
    (let r := { hunting with state := .char, idle := 0, frameSamples := 152, vote7 := .space, vote8 := .space
                             slots := List.replicate 8 .space }
     ((after (.breakRecognised 0 .low) (withRx r)).line 0).rx.state = .breakHold ∧
      (after (.breakRecognised 0 .high) (withRx { r with vote8 := .mark })) = withRx { r with vote8 := .mark } ∧
      ((after (.breakEvent 0) (withRx { hunting with state := .breakHold, idle := 0, markRun := 7 })).lineStats 0).breaks =
        1) := by decide +kernel

theorem test_gap_completion :
    (let s := (withRx { hunting with idle := 29, idleSamples := 15 }).setMsg 0 (some openOne)
     ((after (.gapCompletion 0) s).line 0).msg = none ∧ ((after (.gapCompletion 0) s).lineStats 0).lost = 1) := by
  decide +kernel

theorem test_ticks :
    (after .tick State.reset).tb.counter = 1 ∧
      (after .counterWrap (State.reset.setTb { tickDiv := 23, counter := 0xFFFFFFFF, epoch := 0xFFFF })).tb.epoch = 0 ∧
      after .counterWrap State.reset = State.reset ∧
      ((after .pulseEnd (withSeq { Sequencer.reset with out := { TrigOut.reset with pulse := some 1 } })).seq.out.pulse) =
        none := by decide +kernel

theorem test_timer_expiry :
    after (.timerExpiry 0) State.reset = State.reset ∧
      ((after (.timerExpiry 0) (withTimer0 { TimerUnit.reset with state := .running })).timer 0).state = .expired := by
  decide +kernel

theorem test_input_edge_restarts_the_counter :
    (after (.inputEdge 0 [.high, .high])
      ((withPin0 { InputPin.reset with func := .syncRestart, accepted := some .low }).setTb
        { tickDiv := 23, counter := 77, epoch := 4 })).tb = { tickDiv := 23, counter := 0, epoch := 5 } := by
  decide +kernel

theorem test_event_taken_fires :
    (after .eventTaken (withSeq { armedWith [fireStep] with queue := [.host 1 0] })).seq.state = .fired ∧
      (after .eventTaken (withSeq { armedWith [fireStep] with queue := [.host 2 0] })).seq.flags = 2 := by decide +kernel

theorem test_transmit_steps :
    (let u := { TxUnit.reset with state := .wait, queue := [{ oneByte with preamble := 5, brk := 13 }] }
     let q := ((withRx { hunting with idle := 20 }).setTx 0 u)
     ((after (.takeLine 0) q).line 0).tx.state = .preamble ∧
      after (.takeLine 0) ((withRx { hunting with idle := 19 }).setTx 0 u) =
        (withRx { hunting with idle := 19 }).setTx 0 u ∧
      ((after (.preambleEnd 0) (withTx { u with state := .preamble })).line 0).tx.state = .brk ∧
      ((after (.txBreakEnd 0) (withTx { u with state := .brk })).line 0).tx.onPin.map (·.slots) =
        some [.space, .mark, .space, .mark, .space, .mark, .space, .mark, .space, .mark]) := by decide +kernel

theorem test_transmission_ends :
    (let u := { TxUnit.reset with state := .data, queue := [oneByte], sent := 1, awaited := [⟨0x55, none, 10⟩] }
     ((after (.txCharacterEnd 0) (withTx u)).line 0).tx.state = .hold ∧
      ((after (.echoDeadline 0) (withTx { u with state := .hold })).line 0).tx.lastOutcome = some .collision ∧
      ((after (.holdEnd 0) (withTx { u with state := .hold, awaited := [] })).line 0).tx.lastOutcome = some .ok) := by
  decide +kernel

theorem test_link_frame_is_received :
    (after (.frameReceived (linkSamples (frameBytes 9 0x01 []))) State.reset).link.buffer =
      [⟨⟨9, 0x01, []⟩, false⟩] := by
  have h : after (.frameReceived (linkSamples (frameBytes 9 0x01 []))) State.reset =
      (frameBytes 9 0x01 []).foldl State.takeByte State.reset := takeLinkSamples_bytes _ State.reset rfl
  rw [h]
  decide +kernel

theorem test_link_frame_rows :
    (after (.frameLengthError (linkSamples [0])) (withLink { State.reset.link with rx := .headerLow 1 })).stats.link.lengthErrors =
        1 ∧
      (after .frameTimeout (withLink { State.reset.link with rx := .header })).stats.link.timeouts = 1 ∧
      (after .frameSent State.reset).link.wire = some (.notice { kind := .ready, payload := [0] }) := by decide +kernel

/-- A link that has taken a byte of spaces and waits for mark. -/
def afterSpaces : Link :=
  { State.reset.link with
    rx := .body 9 0 [0], bytes := { level := .space, awaitingMark := true, current := none } }

/-- R165: a line held at space gives one byte 0x00 and then nothing more. -/
theorem test_link_byte_of_spaces :
    (after (.frameReceived (List.replicate 160 .low)) (withLink { State.reset.link with rx := .body 9 0 [] })).link =
        afterSpaces ∧
      (after (.frameReceived (List.replicate 160 .low)) (withLink afterSpaces)).link = afterSpaces := by decide +kernel

/-- R165: the first mark sample ends the wait, within a byte whose fall was not seen too. -/
theorem test_link_mark_ends_the_wait :
    (after (.frameReceived (linkSamples [0xFF])) (withLink afterSpaces)).link =
        { afterSpaces with bytes := ByteReceiver.ready } ∧
      (after (.frameReceived (linkSamples [0x41])) (withLink { afterSpaces with bytes := ByteReceiver.ready })).link.rx =
        .body 9 0 [0, 0x41] := by decide +kernel

/-- R165: a fall shorter than eight samples is dropped at sample 9. -/
theorem test_link_start_bit_is_dropped :
    (after (.frameReceived (List.replicate 6 .low ++ List.replicate 3 .high)) State.reset).link = State.reset.link := by
  decide +kernel

/-- R165, R168: the pin's levels for the first byte of the READY notice: the start bit, 0xC3 from bit 0 on, the stop
bit. -/
theorem test_link_pin_levels :
    (let k := (after .frameSent State.reset).link
     (List.range 10).map k.pinAt = [.low, .high, .high, .low, .low, .low, .low, .high, .high, .high] ∧
      k.bitLevels.length = 80 ∧ k.pinAt 80 = .high) := by decide +kernel

/-- R3, R153 to R156, R159: the transmit data pin in each state of an inverted line, and released. -/
theorem test_transmit_pin_levels :
    (let c := { LineSettings.reset with sense := .inverted, hold := 2 }
     let u := { TxUnit.reset with queue := [{ oneByte with preamble := 2, brk := 13 }] }
     let pin (x : TxState) (n : Nat) := { u with state := x }.pinAt c n
     (List.range 3).map (pin .preamble) = [.low, .low, .low] ∧ pin .brk 0 = .high ∧ pin .brk 12 = .high ∧
      pin .brk 13 = .low ∧ { u with state := .brk }.bitLevels c = List.replicate 13 .space ++ [.mark] ∧
      pin .hold 0 = .low ∧ pin .wait 0 = .low ∧ TxUnit.reset.pinAt LineSettings.reset 0 = .high ∧
      (List.range 10).map ((({ u with state := .brk } : TxUnit).beginNext c).pinAt c) =
        [.high, .low, .high, .low, .high, .low, .high, .low, .high, .low]) := by decide +kernel

/-! ### Witnesses: states and operands that meet the statements' hypotheses, clause by clause -/

theorem witness_StepRunsTheFrontCommand :
    ({ State.reset with pending := [.tick, .eventTaken] } : State).pending = .tick :: [.eventTaken] ∧
      State.reset.pending = [] := by decide

theorem witness_ResetsAreTaken :
    witnessed State.reset 0x02 [] (fun _ => true) = true ∧
      (withLink { State.reset.link with wire := some (.reply { someReply with origin := .resetReply }) }).link.sendingReset =
        true := by decide +kernel

theorem witness_RequestsAreJudged :
    (requestOf (.ident 0 []) = some ⟨0, 0x01, []⟩ ∧ canTake State.reset ⟨0, 0x01, []⟩ = true) ∧
      (requestOf (.ident 1 [0]) = some ⟨1, 0x01, [0]⟩ ∧ witnessed State.reset 0x01 [0] (fun _ => true) = true ∧
        requestCodes.contains 0x01 = true ∧ admits 0x01 1 = false) ∧
      (requestOf (.send 1 [0, 0, 0, 0]) = some ⟨1, 0x70, [0, 0, 0, 0]⟩ ∧ admits 0x70 4 = false) ∧
      requestCodes.contains 0x00 = false ∧ requestCodes.contains 0x04 = false ∧ requestCodes.contains 0x74 = false ∧
      witnessed State.reset 0x74 (List.replicate 1024 0) (fun _ => true) = true := by decide +kernel

theorem witness_RepliesAndNoticesAreSent :
    (State.reset.link.wire = none ∧ State.reset.link.replies = []) ∧
      (let s := withLink { State.reset.link with wire := some (.reply someReply), replies := [someReply] }
       s.link.wire = some (.reply someReply) ∧ s.link.sendingReset = false ∧ s.link.replies = someReply :: []) ∧
      (let s := withLink { State.reset.link with wire := some (.notice someNotice) }
       s.link.wire = some (.notice someNotice) ∧ s.link.sendingReset = false ∧ s.link.replies = [] ∧
        s.link.notices = { kind := .ready, payload := [0] } :: []) ∧
      (let s := withLink { State.reset.link with wire := some (.notice someNotice), notices := [] }
       s.link.replies = [] ∧ s.link.notices = [] ∧ s.link.bitLevels[0]? = some .space ∧
        s.link.bitLevels[9]? = some .mark) ∧
      (let s := withLink { State.reset.link with replies := [someReply] }
       s.link.wire = none ∧ s.link.sendingReset = false ∧ s.link.replies = someReply :: [] ∧
        { s.link with replies := [] }.notices = { kind := .ready, payload := [0] } :: [] ∧
        { s.link with replies := [], notices := [] }.notices = []) ∧
      (let s := withLink { State.reset.link with wire := some (.notice someNotice) }
       State.reset.link.wire = none ∧ s.link.wire = some (.notice someNotice)) := by decide +kernel

/-- R171: a request that raises two notices at an idle transmitter: its reply goes first and the notices wait, or the
first of them does and the reply waits (log 9). -/
theorem test_reply_or_notice_first :
    (let t := { State.reset with link := { State.reset.link with
       wire := some (.notice someNotice), notices := [{ someNotice with payload := [2, 0, 0, 0] }] } }
     let u := placeReply State.reset t someReply
     (u.link.wire = some (.reply someReply) ∧ u.link.notices = [{ someNotice with payload := [2, 0, 0, 0] }] ∧
        u.link.replies = []) ∨
      (u.link.wire = some (.notice someNotice) ∧ u.link.notices = [{ someNotice with payload := [2, 0, 0, 0] }] ∧
        u.link.replies = [someReply])) := by
  cases h : Config.replyBeforeNotice 0 with
  | true =>
    exact Or.inl (by simp [placeReply, State.reset, State.afterReset, Link.afterReset, h, State.useFree,
      State.setLink, takeBack, someNotice])
  | false =>
    exact Or.inr (by simp [placeReply, State.reset, State.afterReset, Link.afterReset, h, State.useFree,
      State.setLink, Link.addReply, Link.choose])

/-- R171: a transmitter with nothing on the wire sends READY at its next chance, and with nothing to send stays so. -/
theorem test_free_transmitter_chooses :
    (after .frameSent State.reset).link.wire = some (.notice { kind := .ready, payload := [0] }) ∧
      after .frameSent (withLink { State.reset.link with notices := [] }) =
        withLink { State.reset.link with notices := [] } := by decide +kernel

theorem witness_NumberAboveTheLast :
    witnessed State.reset 0x11 [4] (fun _ => true) = true ∧ requestOf (.lineStart 1 [4]) = some ⟨1, 0x11, [4]⟩ ∧
      admits 0x11 1 = true ∧ requestOf (.timerControlStop 1 [4, 1]) = some ⟨1, 0x24, [4, 1]⟩ ∧ admits 0x24 2 = true ∧
      witnessed State.reset 0x32 [32] (fun _ => true) = true ∧ requestOf (.filterRead 1 [32]) = some ⟨1, 0x32, [32]⟩ ∧
      admits 0x32 1 = true ∧ (witnessed State.reset 0x22 [2, 1, 0, 0, 0] (fun _ => true) = true ∧ 2 ≤ (2 : Byte).toNat) ∧
      (witnessed State.reset 0x71 ([8, 3, 0, 0, 0] ++ []) (fun _ => true) = true ∧ 8 ≤ (8 : Byte).toNat) ∧
      (witnessed State.reset 0x71 ([7, 4, 0, 0, 0] ++ List.replicate 64 0) (fun _ => true) = true ∧
        4 ≤ (4 : Byte).toNat) ∧
      (witnessed State.reset 0x24 [0, 3] (fun _ => true) = true ∧ 3 ≤ (3 : Byte).toNat) := by decide +kernel

theorem witness_NoticesArePlacedAndMasked :
    (let busy := { State.reset.link with wire := some (.reply someReply) }
     let n : Notice := { kind := .frozen 1, payload := [1, 0] }
     (({ busy with mask := 0 } : Link).mask.getLsbD n.kind.bit = false) ∧
      (busy.mask.getLsbD n.kind.bit = true ∧ ∀ m ∈ busy.notices, m.kind ≠ n.kind) ∧
      (({ busy with notices := [someNotice, { n with payload := [1, 2] }] } : Link).notices =
        [someNotice] ++ { n with payload := [1, 2] } :: [] ∧ ∀ x ∈ [someNotice], x.kind ≠ n.kind)) ∧
      (let k := State.reset.link
       let n : Notice := { kind := .frozen 1, payload := [1, 0] }
       let ready : Notice := { kind := .ready, payload := [0] }
       k.wire = none ∧ k.replies = [] ∧ ({ k with mask := 0 } : Link).mask.getLsbD n.kind.bit = false ∧
        k.mask.getLsbD n.kind.bit = true ∧ ({ k with notices := [] } : Link).notices = [] ∧ k.notices = ready :: [] ∧
        (∀ m ∈ k.notices, m.kind ≠ n.kind) ∧ k.mask.getLsbD ready.kind.bit = true ∧
        ready.kind = ({ ready with payload := [1] } : Notice).kind) ∧
      witnessed State.reset 0x03 [0x80] (fun _ => true) = true ∧
      witnessed State.reset 0x03 [0x7F] (fun _ => true) = true := by decide +kernel

theorem witness_GoodFrameReceived :
    (List.replicate 1024 (0 : Byte)).length ≤ 1024 ∧ ([] : List Byte).length ≤ 1024 ∧ State.reset.link.rx = .hunt ∧
      State.reset.link.syncHeld = false ∧ State.reset.link.buffer.length < 2 ∧
      State.reset.link.bytes = { level := .mark, awaitingMark := false, current := none } ∧
      (let k := { State.reset.link with buffer := [⟨⟨1, 1, []⟩, true⟩, ⟨⟨2, 1, []⟩, false⟩] }
       k.rx = .hunt ∧ k.syncHeld = false ∧ 2 ≤ k.buffer.length) ∧
      (let r : ByteReceiver := { level := .space, awaitingMark := true, current := none }
       r.current = none ∧ r.awaitingMark = true ∧ r.level = .space) ∧
      (let x (_ k : Nat) : PinLevel := if k = 0 ∨ k = 7 ∨ k = 8 then .low else .high
       x 0 0 = .low ∧ x 0 6 = .high ∧ x 0 7 = .low ∧ x 0 8 = .low) ∧
      (0xC2 : Byte) ≠ 0xC3 ∧ ({ State.reset.link with resetTaken := true } : Link).syncHeld = true ∧
      (2 ≤ natOfBytes [2, 0] ∧ natOfBytes [2, 4] ≤ 1026) ∧ ([] : List Byte).length + 1 < natOfBytes [2, 0] + 2 := by
  decide +kernel

/-- The register values that the check's clause names exist. -/
theorem witness_check_register (start : BitVec 16) :
    ∃ r : Nat → BitVec 16, r 0 = start ∧
      ∀ k, r (k + 1) = if (r k).getLsbD 15 then (r k <<< 1) ^^^ 0x1021 else r k <<< 1 :=
  ⟨fun k => Nat.rec start (fun _ v => if v.getLsbD 15 then (v <<< 1) ^^^ 0x1021 else v <<< 1) k, rfl, fun _ => rfl⟩

theorem witness_BadFramesDiscarded :
    State.reset.link.bytes = { level := .mark, awaitingMark := false, current := none } ∧
    (let got : List Byte := [1, 1, 0]
     got.length + 1 = natOfBytes [2, 0] + 2 ∧
      natOfBytes ((got ++ [0]).drop (natOfBytes [2, 0])) ≠
        (frameCheck ([2, 0] ++ got.take (natOfBytes [2, 0]))).toNat ∧
      (withLink { State.reset.link with rx := .body 2 0 got }).link.rx = .body 2 0 got) ∧
      natOfBytes [1, 0] < 2 ∧ 1026 < natOfBytes [0x03, 0x04] ∧ FrameRx.header ≠ FrameRx.hunt := by decide +kernel

theorem witness_ReadingRequests :
    witnessed State.reset 0x01 [] (fun _ => true) = true ∧ witnessed State.reset 0x21 [] (fun _ => true) = true ∧
      witnessed State.reset 0x25 [quadByte 3] (fun _ => true) = true ∧
      witnessed State.reset 0x14 [quadByte 0] (fun _ => true) = true ∧
      witnessed State.reset 0x73 [quadByte 3] (fun _ => true) = true ∧
      witnessed State.reset 0x32 [31] (fun _ => true) = true ∧ witnessed State.reset 0x44 [] (fun _ => true) = true ∧
      witnessed State.reset 0x54 [quadByte 0] (fun _ => true) = true ∧
      ([true, false, false, true] : List Bool).length ≤ 8 ∧ byteOfBits [true, false, false, true] = 9 ∧
      byteOfBits (List.replicate 7 false ++ [true]) = 0x80 := by decide +kernel

theorem witness_StatsReadAndClear :
    witnessed State.reset 0x60 [11, 0] (fun _ => true) = true ∧ 10 < (11 : Byte).toNat ∧
      witnessed State.reset 0x60 [0, 2] (fun _ => true) = true ∧ 1 < (2 : Byte).toNat ∧
      (StatsGroup.ofCode 0).isSome = true ∧ (StatsGroup.ofCode 10).isSome = true ∧
      witnessed State.reset 0x60 [0, 0] (fun _ => true) = true ∧
      witnessed State.reset 0x60 [10, 1] (fun _ => true) = true := by decide +kernel

/-- The fifteen bytes of LINE_CONFIG's lowest settings, with a given rate divisor. -/
def lineBytes (d0 d1 : Byte) : List Byte := [d0, d1, 0, 1, 0, 0, 0, 2, 1, 0, 0, 0, 0, 0, 1]

theorem witness_LineConfigAndStart :
    witnessed (withRx hunting) 0x10 (quadByte 0 :: lineBytes 0 0) (fun t => (t.line 0).rx.state != .off) = true ∧
      (witnessed State.reset 0x10 (quadByte 3 :: lineBytes 0 0x10) (fun t => (t.line 3).rx.state == .off) = true ∧
        parseLineSettings (lineBytes 0 0x10) = none) ∧
      (witnessed State.reset 0x10 (quadByte 3 :: lineBytes 0xFF 0x0F) (fun t => (t.line 3).rx.state == .off) = true ∧
        (parseLineSettings (lineBytes 0xFF 0x0F)).isSome = true ∧ (lineBytes 0 0).length = 15) ∧
      witnessed (withRx hunting) 0x11 [quadByte 0] (fun t => (t.line 0).rx.state != .off) = true ∧
      witnessed State.reset 0x11 [quadByte 0] (fun t => (t.line 0).rx.state == .off) = true := by decide +kernel

theorem witness_PayloadsReadBack :
    LineSettings.InRange { LineSettings.reset with divisor := 4095, gapThreshold := 255, accessGap := 255, hold := 16 } ∧
      LineSettings.InRange { LineSettings.reset with divisor := 0, gapThreshold := 2, maxLength := 1, accessGap := 0 } ∧
      (let e := { FilterEntry.reset with lenMin := 1, lenMax := 65535, slice := 256 }
       1 ≤ e.lenMin ∧ e.lenMin ≤ e.lenMax ∧ e.lenMax ≤ 65535 ∧ e.slice ≤ 256) ∧
      (guardedStep.occurrences ≤ 65535 ∧ (guardedStep.elseTarget.isSome ↔ guardedStep.guard.isSome)) ∧
      (parseLineSettings (lineBytes 0xFF 0x0F)).isSome = true ∧
      (parseFilterEntry [3, 15, 1, 2, 3, 4, 0x6A, 7, 1, 0, 255, 255, 0, 1]).isSome = true ∧
      (parseStep [1, 0, 1, 0, 2, 0xC1, 0x0F, 8, 7, 0, 0, 0]).isSome = true ∧
      ({ fireStep with occurrences := 65535 }.occurrences ≤ 65535 ∧
        (fireStep.elseTarget.isSome ↔ fireStep.guard.isSome)) := by
  unfold LineSettings.InRange; decide

theorem witness_LineStopStops :
    witnessed State.reset 0x12 [quadByte 0] (fun t => (t.line 0).rx.state == .off) = true ∧
      witnessed (withRx { hunting with state := .char, stopPending := true }) 0x12 [quadByte 0]
        (fun t => (t.line 0).rx.state != .off && (t.line 0).rx.stopPending) = true ∧
      witnessed (withRx hunting) 0x12 [quadByte 0]
        (fun t => (t.line 0).rx.state != .off && !(t.line 0).rx.stopPending) = true ∧
      ((withRx { hunting with state := .settle }).line 0).rx.state = .settle ∧
      ((withRx { hunting with state := .char }).line 0).rx.state = .char ∧
      (((withRx { hunting with state := .breakHold }).line 0).rx.state = .breakHold ∧
        ((withRx { hunting with state := .breakHold }).line 0).tx.judging = false) ∧
      { TxUnit.reset with state := .data, queue := [oneByte], sent := 1 }.judging = true := by decide +kernel

theorem witness_requests_of_one_number :
    witnessed State.reset 0x13 [quadByte 3] (fun _ => true) = true ∧
      witnessed State.reset 0x24 [quadByte 3, 0] (fun _ => true) = true ∧
      witnessed State.reset 0x24 [quadByte 3, 1] (fun _ => true) = true ∧
      witnessed State.reset 0x24 [quadByte 0, 2] (fun _ => true) = true := by decide +kernel

theorem witness_SamplesMoveTheIdleMeasure :
    (let r := { hunting with state := .settle, markRun := 191, idle := 11 }
     r.state = .settle ∧ r.markRun = 191) ∧
      Sense.normal.apply .low = .space ∧ Sense.normal.apply .high = .mark ∧ Sense.inverted.apply .low = .mark ∧
      (hunting.state = .hunt ∧ hunting.startPending = false ∧ { hunting with idleSamples := 14 }.idleSamples < 15) ∧
      ({ hunting with idleSamples := 15, idle := 254 }.idle < 255 ∧ ((withRx hunting).line 0).msg = none) ∧
      { hunting with idleSamples := 15, idle := 255 }.idle = 255 ∧
      { hunting with awaitingMark := true }.awaitingMark = true ∧ { hunting with level := .space }.level = .space ∧
      (let s := (withRx { hunting with idleSamples := 15, idle := 28 }).setMsg 0 (some openOne)
       (s.line 0).msg ≠ none ∧ (s.line 0).rx.idle < 255 ∧ (s.line 0).rx.idle + 1 ≠ (s.line 0).cfg.gapThreshold ∧
        29 + 1 = (s.line 0).cfg.gapThreshold ∧ (s.line 0).cfg.mode ≠ .address) ∧
      { LineSettings.reset with mode := .address, format := .f8A }.mode = .address ∧
      ({ hunting with state := .settle, markRun := 0 }.markRun < 191 ∧ { hunting with state := .settle }.state = .settle ∧
        { hunting with markRun := 190 }.markRun < 191) ∧
      ({ hunting with state := .breakHold, markRun := 6 }.markRun < 7 ∧ { hunting with markRun := 7 }.markRun = 7 ∧
        { hunting with state := .breakHold }.state = .breakHold) ∧
      { hunting with startPending := true, frameSamples := 8 }.frameSamples = 8 ∧
      (16 * lastStopSlot LineSettings.reset + 15 = 159 ∧ 16 * firstStopSlot LineSettings.reset + 8 = 152 ∧
        (∀ x ∈ List.replicate 8 Level.space, x = .space) ∧ majority ⟨.space, .mark, .space⟩ = .space) := by
  decide +kernel

theorem witness_StartBitsAreFoundAndDecided :
    (hunting.state = .hunt ∧ hunting.startPending = false ∧ hunting.awaitingMark = false ∧ hunting.level = .mark) ∧
      (TxUnit.reset.state ≠ .preamble ∧ TxUnit.reset.state ≠ .hold) ∧
      ((withRx hunting).setTx 0 { TxUnit.reset with state := .preamble, queue := [oneByte] }).line 0 =
        { (withRx hunting).line 0 with tx := { TxUnit.reset with state := .preamble, queue := [oneByte] } } ∧
      { TxUnit.reset with state := .hold, queue := [oneByte] }.awaited = [] ∧
      { TxUnit.reset with state := .hold, queue := [oneByte], awaited := [⟨0x55, none, 10⟩] }.awaited ≠ [] ∧
      ({ hunting with startPending := true, frameSamples := 1 }.frameSamples + 1 < 9 ∧
        { hunting with startPending := true, frameSamples := 7 }.frameSamples + 1 < 9) ∧
      ({ hunting with startPending := true, frameSamples := 8 }.frameSamples = 8 ∧
        majority ⟨.space, .mark, .space⟩ = .space ∧ majority ⟨.space, .mark, .mark⟩ = .mark) := by decide +kernel

theorem witness_CharacterIsDelivered :
    (let r := { hunting with state := .char, frameSamples := 159 }
     r.state = .char ∧ r.frameSamples = 16 * lastStopSlot LineSettings.reset + 15 ∧ r.stopPending = false ∧
      ((withRx r).line 0).tx.judging = false ∧ { r with stopPending := true }.stopPending = true) ∧
      16 * lastStopSlot { LineSettings.reset with format := .f8A, stopBits := .two } + 15 = 191 ∧
      { TxUnit.reset with state := .data, queue := [oneByte], sent := 1 }.judging = true ∧
      (let place (n : Nat) := n % 16 + 1
       let c := { LineSettings.reset with stopBits := .two }
       place 9 ≠ 9 ∧ place 16 = 1 ∧ place (16 + 6) = 7 ∧ place (16 + 7) = 8 ∧ (place 24 = 9 ∧ 24 / 16 = 1) ∧
        (place 152 = 9 ∧ 152 / 16 = firstStopSlot c ∧ ∃ x ∈ ([.space, .mark] : List Level), x = .mark) ∧
        (place 168 = 9 ∧ firstStopSlot c < 168 / 16) ∧ (place 175 = 16 ∧ ¬175 / 16 < lastStopSlot c) ∧
        (place 159 = 16 ∧ 159 / 16 < lastStopSlot c)) ∧
      8 ≤ (List.replicate 9 Level.mark).length := by decide +kernel

/-- R4, R7, R8: what the slots of a character give, at the ends of each reading. -/
theorem test_slots_are_read :
    (let slots : List Level := [.mark, .space, .space, .space, .space, .space, .space, .space, .mark, .space]
     dataOfSlots .lsbFirst slots = 0x01 ∧ dataOfSlots .msbFirst slots = 0x80 ∧ addressFlag .f8A slots = true ∧
      addressFlag .f8E slots = false ∧ parityFails .f8E slots = false ∧ parityFails .f8O slots = true ∧
      framingFails slots = true ∧ framingFails (slots.take 9) = false) := by decide

/-- R7: the three samples of a slot differ: NOISE is set, and the majority decides. -/
theorem test_slot_is_decided_by_majority :
    (let r := { hunting with state := .char, frameSamples := 24, vote7 := .mark, vote8 := .space }
     let t := ((after (.lineSample 0 .high) (withRx r)).line 0).rx
     t.slots = [.mark] ∧ t.noise = true ∧ t.frameSamples = 25) := by decide +kernel

theorem witness_EchoIsJudged :
    (let u := { TxUnit.reset with state := .data, queue := [oneByte], sent := 1, awaited := [⟨0x55, none, 10⟩] }
     let ch := plainChar 0x55
     u.judging = true ∧ u.awaited = ⟨0x55, none, 10⟩ :: [] ∧ ch.data = 0x55 ∧ ch.parity = false ∧
      ch.framing = false ∧ LineSettings.reset.format ≠ .f8A ∧
      { u with state := .hold, awaited := [] }.judging = true ∧ (plainChar 0x54).data ≠ 0x55) := by decide +kernel

theorem witness_BreaksAreDelivered :
    (let r := { hunting with state := .char, frameSamples := 152, slots := List.replicate 8 .space }
     r.frameSamples = 16 * firstStopSlot LineSettings.reset + 8 ∧ (∀ x ∈ r.slots, x = .space) ∧
      majority ⟨.space, .mark, .space⟩ = .space ∧ ((withRx r).line 0).tx.judging = false ∧ r.stopPending = false ∧
      { r with stopPending := true }.stopPending = true) ∧
      (let r := { hunting with state := .breakHold, markRun := 7 }
       r.state = .breakHold ∧ r.markRun = 7 ∧ ((withRx r).line 0).tx.judging = false ∧
        (((withRx r).setTx 0 { TxUnit.reset with state := .hold, queue := [oneByte] }).line 0).tx.judging = true) := by
  decide +kernel

/-- A filter table whose first entry matches every message of line 0, drops it and sets F7. -/
def dropAll : List Filter :=
  [{ entry := { FilterEntry.reset with enabled := true, lines := 1, lenMin := 1, lenMax := 65535, action := .drop,
                                       flag := some 7 }, hits := 0 }]

theorem witness_CompletionIsWhole :
    (let s := (withRx { hunting with idle := 29, idleSamples := 15 }).setMsg 0 (some openOne)
     (s.line 0).rx.state = .hunt ∧ (s.line 0).rx.startPending = false ∧ (s.line 0).rx.idleSamples = 15 ∧
      (s.line 0).rx.idle + 1 = (s.line 0).cfg.gapThreshold ∧ (s.line 0).cfg.gapThreshold ≤ 255 ∧
      (s.line 0).cfg.mode ≠ .address ∧ (s.line 0).msg = some openOne) ∧
      (filterAnswer (openOne.props 0) .record State.reset.filters.toList).decision = .record ∧
      (filterAnswer (openOne.props 0) .record State.reset.filters.toList).flags = 0 ∧
      (filterAnswer (openOne.props 0) .record dropAll).decision = .drop ∧
      (filterAnswer (openOne.props 0) .record dropAll).flags ≠ 0 ∧ State.reset.seq.queue.length < 16 ∧
      State.reset.offerRecorded 0 (msgRecord 0 .gap openOne none 256) = false ∧
      ((sizeBucket 1, sizeBucket 2, sizeBucket 3, sizeBucket 4, sizeBucket 7, sizeBucket 8) = (0, 1, 1, 2, 2, 3) ∧
        (sizeBucket 15, sizeBucket 16, sizeBucket 63, sizeBucket 64, sizeBucket 255, sizeBucket 256) =
          (3, 4, 4, 5, 5, 6)) ∧
      (withRegion0 running).offerRecorded 0 (msgRecord 0 .gap openOne none 256) = true ∧
      (State.reset.line 0).msg = none ∧ ((State.reset.setMsg 0 (some openOne)).line 0).msg = some openOne := by
  decide +kernel

/-- R35: LINE_STOP in HUNT completes the open message with STOP (cause 2), and its record is written. -/
theorem test_stop_completes_the_open_message :
    (let s := after (.lineStop 1 [0]) (((withRegion0 running).setRx 0 hunting).setMsg 0 (some openOne))
     (s.line 0).msg = none ∧ (s.line 0).rx.state = .off ∧ (s.region 0).count = 1 ∧
      (s.region 0).readWords s.store.mem 1 0 = ((msgRecord 0 .stop openOne none 256).words.take 1)) := by
  decide +kernel

theorem witness_CharacterJoinsItsMessage :
    (State.reset.line 0).msg = none ∧ ((State.reset.setMsg 0 (some openOne)).line 0).msg = some openOne ∧
      LineSettings.reset.mode = .gap ∧
      (let c := { LineSettings.reset with mode := .address, format := .f8A }
       c.mode ≠ .gap ∧ c.format = .f8A ∧ { plainChar 1 with addr := true }.addr = true ∧ (plainChar 1).addr = false) ∧
      (openMessage LineSettings.reset (plainChar 0x41)).received = 0 ∧ openOne.received = 1 ∧
      openOne.stored.length < { LineSettings.reset with maxLength := 2 }.maxLength ∧
      { LineSettings.reset with maxLength := 1 }.maxLength ≤ openOne.stored.length ∧
      ({ openOne with received := 255 }.received ≤ 255 ∧ 255 < { openOne with received := 256 }.received) := by
  decide +kernel

/-- R23: the entries stand in the order PARITY, FRAMING, NOISE, ADDRESS; the ninth is lost and sets STATOVF. -/
theorem test_status_list_fills :
    (let ch := { plainChar 1 with parity := true, framing := true, noise := true, addr := true }
     let full := List.replicate 5 (⟨0, .noise⟩ : StatusEntry)
     let n := Message.add LineSettings.reset { openOne with received := 255, status := full } ch
     n.status = full ++ [⟨255, .parity⟩, ⟨255, .framing⟩, ⟨255, .noise⟩] ∧ n.flags.statOvf = true ∧
      (Message.add LineSettings.reset { openOne with received := 256 } ch).flags.statOvf = true ∧
      (Message.add LineSettings.reset { openOne with received := 256 } ch).status = []) := by decide +kernel

theorem witness_TickAdvances :
    (State.reset.expiries = [] ∧ State.reset.tb.counter ≠ 0xFFFFFFFF) ∧
      (let s := State.reset.setTb { tickDiv := 0, counter := 0xFFFFFFFF, epoch := 0xFFFF }
       s.expiries = [] ∧ s.tb.counter = 0xFFFFFFFF) ∧
      (let s := withTimer0 { TimerUnit.reset with state := .running, limit := 1 }
       (s.timer 0).expiring = true ∧ (∀ v, v ≠ 0 → (s.timer v).expiring = false) ∧ s.seq.queue.length < 16) ∧
      (withSeq { Sequencer.reset with out := { TrigOut.reset with pulse := some 1 } }).seq.out.pulse = some 1 ∧
      (let t := { TimerUnit.reset with state := .running, limit := 16777215, count := 16777213 }
       t.count + 1 < t.limit ∧ t.limit ≤ { t with count := 16777214 }.count + 1) ∧
      (let t := { TimerUnit.reset with state := .running, limit := 1 }
       let s := ((withTimer0 t).setTimer 3 t).setTb { tickDiv := 0, counter := 0xFFFFFFFF, epoch := 0xFFFF }
       s.expiries = [.timer 0 none 0, .timer 3 none 0] ∧ s.tb.counter = 0xFFFFFFFF ∧ s.expiries.Perm s.expiries) ∧
      { TrigOut.reset with pulse := some 2 }.pulse = some 2 := by
  refine ⟨by decide +kernel, by decide +kernel, by decide +kernel, by decide +kernel, by decide +kernel,
    ⟨by decide +kernel, by decide +kernel, List.Perm.refl _⟩, by decide⟩

/-- R38, R54, R79: a unit expires at a wrap with the queue full: its event is lost, and the unit is EXPIRED. -/
theorem test_expiry_at_a_wrap_and_a_full_queue :
    (let t := { TimerUnit.reset with state := .running, limit := 1 }
     let s := ((withSeq { Sequencer.reset with queue := fullQueue }).setTimer 0 t).setTb
       { tickDiv := 0, counter := 0xFFFFFFFF, epoch := 7 }
     ((after .tick s).timer 0).state = .expired ∧ (after .tick s).tb.epoch = 8) := by
  decide +kernel

theorem witness_TimeAndTimerConfig :
    witnessed State.reset 0x20 [255]
        (fun t => (List.finRange 4).all (fun i => (t.line i).rx.state == .off && (t.timer i).state == .idle)) = true ∧
      witnessed (withRx hunting) 0x20 [0] (fun t => (t.line 0).rx.state != .off) = true ∧
      witnessed (withTimer0 { TimerUnit.reset with state := .expired }) 0x20 [0]
        (fun t => (t.timer 0).state != .idle) = true ∧
      witnessed (withTimer0 { TimerUnit.reset with state := .running }) 0x23 [quadByte 0, 1, 0, 0, 0, 0xFF, 0]
        (fun t => (t.timer 0).state != .idle) = true ∧
      witnessed State.reset 0x23 [quadByte 0, 0, 0, 0, 0, 0xFF, 0] (fun t => (t.timer 0).state == .idle) = true ∧
      natOfBytes [0, 0, 0] = 0 ∧ 1 < (2 : Byte).toNat ∧ (8 ≤ (8 : Byte).toNat ∧ (8 : Byte) ≠ 0xFF) ∧
      16 ≤ (16 : Byte).toNat ∧ natOfBytes [1, 0, 0] ≠ 0 ∧ byteOfFlagOpt (some 7) = 7 ∧ byteOfFlagOpt none = 0xFF ∧
      (15 : Byte).toNat = (15 : QuadSet).toNat := by decide +kernel

theorem witness_InputConfigReplacesSettings :
    witnessed State.reset 0x22 [0, 4, 0, 0, 0] (fun _ => true) = true ∧ PinFunction.ofCode 4 = none ∧
      EdgeSelect.ofCode 3 = none ∧ 8 ≤ (8 : Byte).toNat ∧ 16 ≤ (16 : Byte).toNat ∧
      witnessed (withPin0 { InputPin.reset with accepted := some .high }) 0x22 [0, 1, 0, 7, 15]
        (fun t => (t.pin 0).func == .off && !(t.pin 0).marker && (t.pin 0).accepted == some .high) = true ∧
      PinFunction.ofCode 1 = some .syncCapture ∧ EdgeSelect.ofCode 0 = some .rising ∧
      (7 : Byte).toNat = (7 : FlagId).val ∧ (15 : Byte).toNat = (15 : QuadSet).toNat ∧
      witnessed State.reset 0x22 [1, 3, 2, 0, 0] (fun t => (t.pin 1).accepted != some .high) = true ∧
      PinFunction.ofCode 3 = some .flag ∧ EdgeSelect.ofCode 2 = some .both ∧ PinFunction.ofCode 0 = some .off ∧
      PinFunction.ofCode 2 = some .syncRestart ∧ EdgeSelect.ofCode 1 = some .falling := by decide +kernel

theorem witness_InputEdgeActs :
    InputPin.reset.accepted = none ∧
      (let p (f : PinFunction) : InputPin := { InputPin.reset with func := f, accepted := some .low }
       (p .off).accepted = some .low ∧ PinLevel.low ≠ .high ∧ (p .off).opposite = false ∧
        (p .off).valid (edgeTo .high) = false ∧ (p .syncCapture).valid (edgeTo .high) = true ∧
        (p .syncRestart).valid (edgeTo .high) = true ∧ (p .flag).valid (edgeTo .high) = true) ∧
      { InputPin.reset with accepted := some .low, opposite := true }.accepted = some .low ∧
      State.reset.seq.queue.length < 16 := by decide +kernel

theorem witness_FilterWriteAndEnable :
    (let e1 : Filter := { entry := { FilterEntry.reset with enabled := true }, hits := 5 }
     let good : List Byte := [0, 0, 0, 0, 0, 0, 0, 0xFF, 1, 0, 1, 0, 0, 0]
     let bad : List Byte := [0, 0, 0, 0, 0, 0, 0, 0xFF, 0, 0, 1, 0, 0, 0]
     witnessed (State.reset.setFilter 31 e1) 0x30 (31 :: good) (fun t => (t.filter 31).entry.enabled) = true ∧
      witnessed State.reset 0x30 (31 :: bad) (fun t => !(t.filter 31).entry.enabled) = true ∧
      parseFilterEntry bad = none ∧ (parseFilterEntry good).isSome = true ∧ good.length = 14 ∧ bad.length = 14) ∧
      (let p (en dis : BitVec 32) := bytesOfNat 4 en.toNat ++ bytesOfNat 4 dis.toNat
       witnessed State.reset 0x31 (p 1 1) (fun _ => true) = true ∧ (1 : BitVec 32) &&& 1 ≠ 0 ∧
        witnessed State.reset 0x31 (p 0x80000001 2) (fun _ => true) = true ∧ (0x80000001 : BitVec 32) &&& 2 = 0) := by
  decide +kernel

theorem witness_FilterMatchesAndDecides :
    (∀ f ∈ State.reset.filters.toList, f.entry.matchesMsg (openOne.props 0) = true → f.entry.action = .count) ∧
      (dropAll[0]?.map (fun f => f.entry.matchesMsg (openOne.props 0) && f.entry.action != .count)) = some true := by
  decide +kernel

theorem witness_SeqLoadReplacesTheTable :
    (let one : List Byte := [1, 0, 1, 0, 0xFF, 0x40, 0, 0, 0, 0, 0, 0]
     let broken : List Byte := [0, 0, 1, 0, 0xFF, 0x40, 0, 0, 0, 0, 0, 0]
     let bad : List Byte := [1, 12, 1, 0, 0xFF, 0x40, 0, 0, 0, 0, 0, 0]
     let full := (List.replicate 16 one).flatten
     admits 0x40 one.length = true ∧ admits 0x40 full.length = true ∧
      witnessed (withSeq (armedWith [fireStep])) 0x40 one (fun t => t.seq.state == .armed) = true ∧
      (witnessed State.reset 0x40 bad (fun t => t.seq.state != .armed) = true ∧
        parseTable (bad.length / 12) bad = none) ∧
      (parseTable (broken.length / 12) broken).bind (firstBreak 1 0) = some 0 ∧
      (parseTable (full.length / 12) full).map (firstBreak 16 0) = some none) ∧
      firstBreak 2 0 [fireStep, { fireStep with mask := 0 }] = some 1 ∧
      firstBreak 1 0 [{ guardedStep with elseTarget := some (.step 1) }] = some 0 ∧
      firstBreak 1 0 [{ fireStep with timing := .onElse }] = some 0 ∧
      firstBreak 1 0 [{ guardedStep with action := .stopTimer 2 }] = some 0 ∧
      firstBreak 1 0 [{ fireStep with matchKind := .call }] = some 0 := by decide +kernel

theorem witness_SeqArmAndDisarm :
    witnessed (withSeq (armedWith [fireStep])) 0x41 [] (fun t => t.seq.state == .armed) = true ∧
      witnessed State.reset 0x41 [] (fun t => t.seq.state != .armed && t.seq.table == []) = true ∧
      witnessed (withSeq { Sequencer.reset with table := [fireStep] }) 0x41 []
        (fun t => t.seq.state != .armed && t.seq.table == [fireStep]) = true ∧ fireStep.guard = none ∧
      witnessed (withSeq { Sequencer.reset with table := [guardedStep] }) 0x41 []
        (fun t => t.seq.state != .armed && t.seq.table == [guardedStep]) = true ∧ guardedStep.guard = some 2 ∧
      witnessed State.reset 0x42 [] (fun t => t.seq.state != .armed) = true ∧
      witnessed (withSeq (armedWith [guardedStep])) 0x42 []
        (fun t => t.seq.state == .armed && (t.seq.step?.bind (·.guard)) == some 2) = true := by decide +kernel

theorem witness_SeqForceFires :
    witnessed State.reset 0x43 [] (fun t => t.seq.state != .armed) = true ∧
      witnessed (withSeq (armedWith [fireStep])) 0x43 []
        (fun t => t.seq.state == .armed && (t.seq.step?.bind (·.guard)) == none) = true ∧
      witnessed (withSeq (armedWith [guardedStep])) 0x43 []
        (fun t => t.seq.state == .armed && (t.seq.step?.bind (·.guard)) == some 2) = true := by decide +kernel

theorem witness_SeqSettingsWritten :
    (witnessed State.reset 0x45 [16, 0] (fun _ => true) = true ∧ 16 ≤ (16 : Byte).toNat) ∧
      (witnessed State.reset 0x45 [15, 0] (fun _ => true) = true ∧ (15 : Byte).toNat = (15 : QuadSet).toNat) ∧
      (witnessed State.reset 0x46 [1, 1] (fun _ => true) = true ∧ (1 : Byte) &&& 1 ≠ 0) ∧
      (witnessed State.reset 0x46 [1, 2] (fun t => t.seq.state != .armed) = true ∧ (1 : Byte) &&& 2 = 0) ∧
      witnessed (withSeq { armedWith [fireStep] with queue := fullQueue.take 15 }) 0x46 [1, 2]
        (fun t => t.seq.state == .armed && decide (t.seq.queue.length < 16)) = true ∧
      witnessed (withSeq { armedWith [guardedStep] with queue := fullQueue }) 0x46 [1, 2]
        (fun t => t.seq.state == .armed && decide (16 ≤ t.seq.queue.length)) = true ∧
      { TrigOut.reset with held := true }.held = true ∧ { TrigOut.reset with pulse := some 1 }.pulse ≠ none ∧
      witnessed (withSeq { Sequencer.reset with out := { TrigOut.reset with held := true } }) 0x47 [0, 0, 1, 0]
        (fun t => t.seq.out.asserted) = true ∧
      (witnessed State.reset 0x47 [2, 2, 0, 0] (fun t => !t.seq.out.asserted) = true ∧ 1 < (2 : Byte).toNat ∧
        natOfBytes [0, 0] = 0) ∧
      (witnessed State.reset 0x47 [1, 1, 1, 0] (fun t => !t.seq.out.asserted) = true ∧ natOfBytes [1, 0] ≠ 0) := by
  decide +kernel

theorem witness_EventIsTaken :
    ((withSeq { Sequencer.reset with queue := fullQueue.take 15 }).seq.queue.length < 16 ∧
      16 ≤ (withSeq { Sequencer.reset with queue := fullQueue }).seq.queue.length ∧ Sequencer.reset.state ≠ .armed ∧
      (withSeq { armedWith [guardedStep] with queue := fullQueue }).seq.state = .armed) ∧
    (withSeq { Sequencer.reset with queue := [.host 1 0] }).seq.queue = .host 1 0 :: [] ∧
      (let q := { armedWith [guardedStep] with guardGen := 255, queue := [.timer 2 (some 7) 255] }
       q.state = .armed ∧ q.step? = some guardedStep ∧ guardedStep.guard = some 2 ∧
        q.queue = .timer 2 (some 7) q.guardGen :: []) ∧
      (let q := { armedWith [fireStep] with queue := [.host 1 0] }
       q.step? = some fireStep ∧ (SeqEvent.host 2 0).toSet &&& fireStep.mask = 0 ∧
        (SeqEvent.host 1 0).toSet &&& fireStep.mask ≠ 0 ∧ ((0 : FlagSet) ||| 1) &&& ~~~0 &&& fireStep.mask ≠ 0 ∧
        q.occurrence + 1 = fireStep.occurrences ∧ q.occurrence + 1 ≠ { fireStep with occurrences := 2 }.occurrences ∧
        q.occurrence < 65535) ∧
      (let st := { fireStep with mask := 3, sense := .all }
       st.sense = .all ∧ (1 : FlagSet) &&& st.mask ≠ st.mask ∧ (3 : FlagSet) &&& st.mask = st.mask) ∧
      (fireStep.sense = .any ∧ (((0 : FlagSet) ||| 1) &&& ~~~1) &&& fireStep.mask = 0) := by decide +kernel

theorem witness_ActionsArePerformed :
    fireStep.timing ≠ .exit ∧ fireStep.timing = .each ∧
      (withSeq { Sequencer.reset with out := { TrigOut.reset with held := true } }).seq.out.held = true ∧
      State.reset.seq.out.held = false ∧ State.reset.canned[(7 : Fin 8)] = none ∧
      (let cm : CannedMessage := ⟨3, 0, 0, false, [1]⟩
       let s := { (State.reset.setCfg 3 { LineSettings.reset with txPermitted := true }).setRx 3 hunting with
                  canned := State.reset.canned.set 7 (some cm) }
       s.canned[(7 : Fin 8)] = some cm ∧ (s.line 3).rx.state ≠ .off ∧ (s.line 3).rx.stopPending = false ∧
        (s.line 3).cfg.txPermitted = true ∧ (s.line 3).tx.queue.length < 4 ∧ (State.reset.line 3).rx.state = .off) := by
  decide +kernel

theorem witness_ExitsAndStepEntry :
    fireStep.matchKind = .go ∧ { fireStep with matchKind := .call }.matchKind = .call ∧
      guardedStep.elseTarget = some (.step 0) ∧ { Sequencer.reset with link := some 15 }.link = some 15 ∧
      State.reset.seq.link = none ∧
      (withSeq { Sequencer.reset with table := [fireStep, guardedStep] }).seq.table[(1 : Fin 16).val]? =
        some guardedStep := by decide +kernel

theorem witness_RegionRequests :
    witnessed (withRegion0 running) 0x50 [quadByte 0, 0, 2, 0, 0, 0, 0]
        (fun t => (t.region 0).state != .disabled && (t.region 0).state != .stopped) = true ∧
      (witnessed (State.reset.setRegion 1 { running with base := 10 }) 0x50 [quadByte 0, 8, 3, 0, 0, 0, 0]
        (fun t => (t.region 0).state == .disabled && (t.region 1).state != .disabled) = true ∧
        (8 : Byte).toNat < 10 + 2 ∧ 10 < (8 : Byte).toNat + 3) ∧
      witnessed State.reset 0x50 [quadByte 0, 254, 2, 0, 1, 128, 0] (fun t => (t.region 0).state == .disabled) = true ∧
      (1 : Byte) = Policy.stop.code ∧ (128 : Nat) ≤ 64 * 2 ∧ (254 : Byte).toNat + 2 ≤ 256 ∧
      witnessed State.reset 0x51 [quadByte 0, 2, 0, 0] (fun _ => true) = true ∧
      witnessed (withRegion0 running) 0x51 [quadByte 0, 0, 0, 0] (fun t => (t.region 0).state != .stopped) = true ∧
      witnessed (withRegion0 { running with state := .stopped, hasTrig := true }) 0x51 [quadByte 0, 1, 0, 0]
        (fun t => (t.region 0).state == .stopped && (t.region 0).hasTrig) = true ∧
      witnessed (withRegion0 { running with state := .stopped }) 0x51 [quadByte 0, 1, 0xFF, 0xFF]
        (fun t => (t.region 0).state == .stopped && !(t.region 0).hasTrig) = true ∧
      witnessed (withRegion0 running) 0x52 [quadByte 0] (fun t => (t.region 0).state != .disabled) = true ∧
      witnessed State.reset 0x53 [quadByte 0] (fun t => (t.region 0).state == .disabled) = true ∧
      witnessed (withRegion0 running) 0x57 [quadByte 0] (fun t => (t.region 0).state != .disabled) = true := by
  decide +kernel

/-- Region 0 with a read MEAS record of three words and an unread EPOCH record of two. -/
def twoRecords : State :=
  let s := (withRegion0 running).offer 0 (measRecord 2 0x010203 0x0A0B0C0D 5)
  ((s.setRegion 0 { s.region 0 with cursor := 3, unread := 0 })).offer 0 (epochRecord 6 none)

/-- The chain of headers and the counts that the reading, releasing and overwriting statements suppose. -/
theorem witness_two_records_are_a_chain :
    (let r := twoRecords.region 0
     r.chain twoRecords.store.mem r.head ([3] ++ [2]) ∧ r.count = ([3] ++ [2]).length ∧ r.used = ([3] ++ [2]).sum ∧
      r.unread = [2].sum ∧ r.cursor = r.advance r.head [3].sum ∧ r.tail = r.advance r.head r.used ∧
      r.head < r.words ∧ r.used ≤ r.words) := by
  refine ⟨⟨?_, ?_, ?_, ?_, trivial⟩, ?_⟩ <;> decide +kernel

theorem witness_ReadDeliversWholeRecords :
    witnessed twoRecords 0x55 [quadByte 0, 0x20, 0x01] (fun t => (t.region 0).state != .disabled) = true ∧
      4 * 72 = natOfBytes [0x20, 0x01] ∧
      witnessed State.reset 0x55 [quadByte 0, 0xFC, 0x03] (fun t => (t.region 0).state == .disabled) = true ∧
      4 * 255 = natOfBytes [0xFC, 0x03] ∧ (twoRecords.region 0).Sound ∧
      (witnessed State.reset 0x55 [quadByte 0, 0x1C, 0x01] (fun _ => true) = true ∧ natOfBytes [0x1C, 0x01] < 288) ∧
      (witnessed twoRecords 0x55 [quadByte 0, 0x00, 0x04] (fun _ => true) = true ∧ 1020 < natOfBytes [0x00, 0x04]) ∧
      (witnessed twoRecords 0x55 [quadByte 0, 0x22, 0x01] (fun _ => true) = true ∧
        natOfBytes [0x22, 0x01] % 4 ≠ 0) := by unfold Region.Sound; decide +kernel

theorem witness_ReleaseFreesReadRecords :
    witnessed twoRecords 0x56 [quadByte 0, 0, 0] (fun t => (t.region 0).state != .disabled) = true ∧
      witnessed twoRecords 0x56 [quadByte 0, 0xFF, 0xFF] (fun t => (t.region 0).state != .disabled) = true ∧
      witnessed State.reset 0x56 [quadByte 3, 0, 0] (fun t => (t.region 3).state == .disabled) = true := by
  decide +kernel

/-- R117: a region holds a read TRIG record; releasing it clears has-TRIG, releasing the MEAS record before it does
not. -/
theorem test_release_of_a_trig_record :
    (let s0 := ((withRegion0 { running with state := .armed }).offer 0 (measRecord 2 1 2 3)).offer 0
       (trigRecord ⟨0, .forced, 0, 0⟩)
     let s := s0.setRegion 0 { s0.region 0 with cursor := 6, unread := 0 }
     (s.region 0).hasTrig = true ∧ ((after (.release 1 [0, 1, 0]) s).region 0).hasTrig = true ∧
      ((after (.release 1 [0, 2, 0]) s).region 0).hasTrig = false) := by decide +kernel

theorem witness_OffersAreTaken :
    (let meas := measRecord 0 0 0 0
     let full := { running with used := 128, policy := .stop }
     Region.reset.state = .disabled ∧ running.state = .run ∧ (trigRecord ⟨0, .forced, 0, 0⟩).kind = .trig ∧
      full.free < meas.words.length ∧ { full with state := .armed }.state = .armed ∧
      { full with state := .postfill }.state = .postfill ∧ meas.kind ≠ .msg ∧ meas.kind ≠ .trig ∧
      (brkRecord 0 ⟨0, 0, 0, false, false⟩).kind = .brk ∧ (msgRecord 0 .gap openOne none 256).kind = .msg ∧
      { running with used := 125 }.free = meas.words.length ∧
      { running with used := 123, pendMsgs := 1 }.free = meas.words.length + 2 ∧
      (let r := { twoRecords.region 0 with used := 128, unread := 125 }
       r.free < meas.words.length ∧ r.policy = .roll ∧
        meas.words.length ≤ (Region.makeRoom twoRecords.store.mem r.count r meas.words.length).free)) := by
  decide +kernel

theorem witness_RollMakesRoom :
    3 ≤ (twoRecords.region 0).words ∧ 128 ≤ (twoRecords.region 0).words := by decide +kernel

theorem witness_WrittenRecordsReadBack :
    Memory.wf twoRecords.store.mem = true ∧ (twoRecords.region 0).Sound ∧ (twoRecords.region 0).state = .run ∧
      (measRecord 0 0 0 0).words.length ≤ (twoRecords.region 0).free ∧ (measRecord 0 0 0 0).words[2]? = some 0 := by
  unfold Region.Sound; decide +kernel

theorem witness_RecordLayouts :
    ((3 : Nat) < 4 ∧ (255 : Nat) < 256 ∧ (4095 : Nat) < 4096 ∧ (15 : Nat) < 16) ∧
      (let m := { openOne with stored := List.replicate 256 0xAA, received := 65535, lastEnd := 0xFFFFFF
                               status := List.replicate 8 ⟨255, .noise⟩ }
       m.stored.length ≤ 256 ∧ m.status.length ≤ 8 ∧ m.received ≤ 65535 ∧ m.lastEnd ≤ 0xFFFFFF ∧
        (m.stored.take 255)[254]? = some 0xAA ∧ m.status[7]? = some ⟨255, .noise⟩) ∧
      (∀ n, some 31 = some n → n < 32) := by
  refine ⟨by decide, by decide +kernel, ?_⟩
  intro n h; cases h; decide

theorem witness_SendCannedAndFlush :
    witnessed State.reset 0x70 ([quadByte 0, 0, 0, 0, 1] ++ []) (fun t => (t.line 0).rx.state == .off) = true ∧
      (let s := (withRx hunting).setCfg 0 { LineSettings.reset with txPermitted := true }
       let ok (t : State) := (t.line 0).rx.state != .off && !(t.line 0).rx.stopPending && (t.line 0).cfg.txPermitted
       witnessed s 0x70 ([quadByte 0, 0, 12, 0, 1] ++ []) ok = true ∧ (12 : Byte).toNat ≤ 12 ∧
        witnessed s 0x70 ([quadByte 0, 0, 13, 0, 1] ++ List.replicate 255 0) ok = true ∧ 13 ≤ (13 : Byte).toNat ∧
        witnessed s 0x70 ([quadByte 0, 0, 0, 1, 1] ++ []) ok = true ∧ (1 : Byte).getLsbD 0 = true ∧
        witnessed (s.setTx 0 { TxUnit.reset with state := .wait, queue := List.replicate 4 oneByte }) 0x70
          ([quadByte 0, 0, 0, 0, 1] ++ []) (fun t => ok t && decide (4 ≤ (t.line 0).tx.queue.length)) = true) ∧
      witnessed State.reset 0x71 ([7, quadByte 3, 0, 1, 0] ++ []) (fun _ => true) = true ∧
      witnessed State.reset 0x71 ([7, quadByte 3, 0, 13, 0] ++ List.replicate 64 0) (fun _ => true) = true ∧
      (let u := { TxUnit.reset with state := .wait, queue := [oneByte] }
       let st (x : TxState) (t : State) := (t.line 0).tx.state == x
       witnessed (withTx u) 0x72 [quadByte 0] (st .wait) = true ∧
        witnessed (withTx { u with state := .brk }) 0x72 [quadByte 0] (st .brk) = true ∧
        witnessed (withTx { u with state := .data, sent := 1 }) 0x72 [quadByte 0]
          (fun t => st .data t && (t.line 0).tx.cut != .reset) = true ∧
        witnessed (withTx { u with state := .hold }) 0x72 [quadByte 0]
          (fun t => st .hold t && (t.line 0).tx.awaited == []) = true ∧
        witnessed (withTx { u with state := .hold, awaited := [⟨0x55, none, 10⟩] }) 0x72 [quadByte 0]
          (fun t => st .hold t && (t.line 0).tx.awaited != []) = true) := by decide +kernel

theorem witness_TransmissionTakesTheLine :
    (let u := { TxUnit.reset with state := .wait, queue := [{ oneByte with preamble := 255, brk := 255 }] }
     let l := ((withRx { hunting with idle := 20 }).setTx 0 u).line 0
     l.tx.queue = { oneByte with preamble := 255, brk := 255 } :: [] ∧ oneByte.data = 0x55 :: [] ∧ l.tx.sent = 0 ∧
      l.tx.collided = false ∧ l.tx.state = .wait ∧ l.rx.state = .hunt ∧ l.rx.startPending = false ∧
      l.rx.awaitingMark = false ∧ l.cfg.accessGap ≤ l.rx.idle ∧ l.msg = none ∧ oneByte.preamble = 0 ∧
      oneByte.brk = 0) ∧
      (let u := { TxUnit.reset with queue := [{ oneByte with preamble := 5, brk := 13 }] }
       TxUnit.reset.state ≠ .wait ∧ { hunting with idle := 19 }.idle < LineSettings.reset.accessGap ∧
        { hunting with awaitingMark := true }.awaitingMark = true ∧
        (LineSettings.reset.mode ≠ .address ∧ (((withRx hunting).setMsg 0 (some openOne)).line 0).msg ≠ none) ∧
        u.queue = { oneByte with preamble := 5, brk := 13 } :: [] ∧ { u with state := .preamble }.state = .preamble ∧
        { u with state := .brk }.state = .brk ∧ { u with state := .hold }.state = .hold ∧
        ((u.beginNext LineSettings.reset).state = .data ∧ (u.beginNext LineSettings.reset).onPin.isSome = true)) ∧
      4 = ((List.range 8).filter (0x55 : Byte).getLsbD).length := by decide +kernel

theorem witness_CharacterEndsOnThePin :
    (let t := { oneByte with data := [0x55, 0x66] }
     let u := { TxUnit.reset with state := .data, queue := [t], sent := 1, awaited := [⟨0x55, none, 10⟩] }
     u.queue = t :: [] ∧ u.cut = .none ∧ u.collided = false ∧ u.awaited.length ≤ 1 ∧ t.data[u.sent]? = some 0x66 ∧
      t.data.length ≤ { u with sent := 2 }.sent ∧ { u with collided := true }.collided = true ∧
      { u with cut := .flushed }.cut = .flushed ∧ { u with cut := .reset }.cut = .reset ∧ 1 ≤ u.sent ∧
      2 ≤ { u with awaited := u.awaited ++ u.awaited }.awaited.length) := by decide +kernel

/-- R157: a character ends with two echoes awaited: the collision is found at once, on the next byte or in the hold,
which ends the transmission. -/
theorem test_character_end_with_two_echoes_awaited :
    (let t := { oneByte with data := [0x55, 0x66, 0x77] }
     let u := { TxUnit.reset with state := .data, queue := [t], sent := 2
                                  awaited := [⟨0x55, none, 10⟩, ⟨0x66, none, 10⟩] }
     let a := after (.txCharacterEnd 0) ((withTx u).setMsg 0 (some openOne))
     let b := after (.txCharacterEnd 0) (withTx { u with sent := 3 })
     (a.line 0).tx.collided = true ∧ (a.line 0).tx.sent = 3 ∧ (a.line 0).tx.awaited = [] ∧
      (a.line 0).tx.state = .data ∧ (a.line 0).msg.map (fun m => m.flags.coll) = some true ∧
      (b.line 0).tx.state = .idle ∧ (b.line 0).tx.lastOutcome = some .collision) := by decide +kernel

theorem witness_DeadlinesAndHolds :
    (let u := { TxUnit.reset with state := .hold, queue := [oneByte], sent := 1 }
     u.collided = false ∧ u.cut = .none ∧ u.awaited = [] ∧ { u with awaited := [⟨0x55, none, 10⟩] }.awaited ≠ [] ∧
      2 ≤ { u with state := .data, awaited := [⟨0x55, none, 10⟩, ⟨0x55, none, 10⟩] }.awaited.length) := by
  decide +kernel

theorem witness_ReadersAndNonProducersStoreNothing :
    readsOnly (.ident 1 []) = true ∧ readsOnly (.statsRead 1 [10, 0]) = true ∧ storesNothing (.read 1 [0]) = true := by
  decide

theorem witness_OffersStoreAtTheTail :
    Memory.wf twoRecords.store.mem = true ∧
      witnessed (twoRecords.setTimer 0 { TimerUnit.reset with mask := 1 }) 0x24 [quadByte 0, 2]
        (fun t => (t.timer 0).mask.getLsbD 0) = true ∧
      (let s := (twoRecords.setRx 0 { hunting with idle := 29, idleSamples := 15 }).setMsg 0 (some openOne)
       (s.line 0).rx.idle + 1 = (s.line 0).cfg.gapThreshold ∧ (s.line 0).msg = some openOne ∧
        (s.line 0).cfg.mode ≠ .address) ∧
      (let s := twoRecords.setRx 0 { hunting with state := .breakHold, markRun := 7 }
       (s.line 0).rx.state = .breakHold ∧ (s.line 0).rx.markRun = 7 ∧ (s.line 0).tx.judging = false ∧
        (s.line 0).msg = none) := by decide +kernel

/-- A state beside State.reset in which the invariants of the memory, the regions, the queues and the counters hold
and a step is taken. -/
theorem witness_invariants :
    MemoryCanonical twoRecords ∧ RegionsSound twoRecords ∧ QueuesBounded twoRecords ∧ TxSound twoRecords ∧
      ReceiverSound twoRecords ∧ AssemblerClosed twoRecords ∧ BusyBounded twoRecords ∧ NoticesDistinct twoRecords ∧
      StatsBalanced twoRecords := by
  unfold MemoryCanonical RegionsSound Region.Sound QueuesBounded TxSound TxUnit.Sound ReceiverSound Receiver.Sound
    AssemblerClosed BusyBounded NoticesDistinct StatsBalanced LineStats.Balanced
  refine ⟨?_, ⟨?_, ?_⟩, ?_, ?_, ?_, ?_, ?_, ?_, ?_⟩ <;> decide +kernel

theorem witness_RegionsStayWhole : RegionsWhole twoRecords := by
  refine ⟨witness_invariants.2.1, ?_, ?_⟩
  · unfold LinesInRange LineSettings.InRange
    intro i
    refine ⟨by revert i; decide +kernel, ?_⟩
    have closed : ∀ i : LineId, (twoRecords.line i).msg = none := by decide +kernel
    intro m h
    rw [closed i] at h
    cases h
  · intro id h
    by_cases h0 : id = 0
    · subst h0
      exact ⟨[3], [2], witness_two_records_are_a_chain.1, witness_two_records_are_a_chain.2.1,
        witness_two_records_are_a_chain.2.2.1, witness_two_records_are_a_chain.2.2.2.1,
        witness_two_records_are_a_chain.2.2.2.2.1, witness_two_records_are_a_chain.2.2.2.2.2.1⟩
    · have disabled : ∀ id : RegionId, id ≠ 0 → (twoRecords.region id).state = .disabled := by decide +kernel
      exact absurd (disabled id h0) h

/-- The address of byte 0 of a region's first block is in that region; the byte before its base is in none. -/
theorem witness_MemoryOutsideRegionsUntouched :
    (256 * (twoRecords.region 0).base ≤ 511 ∧ 511 < 256 * ((twoRecords.region 0).base + (twoRecords.region 0).size)) ∧
      ¬512 < 256 * ((twoRecords.region 0).base + (twoRecords.region 0).size) ∧
      (∀ id : RegionId, id ≠ 0 → (twoRecords.region id).state = .disabled) := by decide +kernel

/-- An ARMED sequencer that meets its invariant. -/
theorem witness_SequencerStaysSound :
    SequencerSound (withSeq { armedWith [fireStep, guardedStep] with link := some 1 }) := by
  refine ⟨by decide +kernel, by decide +kernel, fun _ => ⟨⟨fireStep, by decide +kernel, by decide⟩, ?_⟩⟩
  intro r h; cases h; decide

theorem witness_CountersBalanceAndRise :
    clearsCounters (.statsRead 1 [0, 0]) = false ∧ clearsCounters .tick = false ∧
      State.reset.link.sendingReset = false := by decide

end Sys2Proof.Tests
end

/-! PROOFS. LINE_RESET (R16, R36, R163): what it leaves of a line's transmit unit and of the line, and that the request
does nothing else. -/

namespace Sys2Proof.Machine

/-! ### The transmit unit at LINE_RESET (R163) -/

/-- A unit whose only transmission leaves the queue is idle, with nothing of a transmission in progress left. -/
theorem TxUnit.dropOldest_of_last {u : TxUnit} (h : u.queue.tail = []) :
    u.dropOldest =
      { u with
        state := .idle, queue := [], onPin := none, sent := 0, awaited := [], collided := false, cut := .none } := by
  simp [TxUnit.dropOldest, h]

/-- The unit LINE_RESET leaves: a character on the pin is finished as the last of a cut transmission; in every other
state everything queued or in progress is gone at once (R163). -/
def TxUnit.afterLineReset (u : TxUnit) : TxUnit :=
  if u.state = .data then { u with queue := u.queue.take 1, awaited := [], cut := .reset }
  else
    { u with
      state := .idle, queue := [], onPin := none, sent := 0, awaited := [], collided := false, cut := .none }

theorem resetTx_of_data {s : State} {i : LineId} (h : (s.line i).tx.state = .data) :
    resetTx s i =
      s.setTx i { (s.line i).tx with queue := (s.line i).tx.queue.take 1, awaited := [], cut := .reset } := by
  simp only [resetTx, h]

theorem resetTx_of_not_data {s : State} {i : LineId} (h : (s.line i).tx.state ≠ .data) :
    resetTx s i = s.setTx i ({ (s.line i).tx with queue := (s.line i).tx.queue.take 1 }).dropOldest := by
  cases hs : (s.line i).tx.state with
  | data => exact absurd hs h
  | idle | wait | preamble | brk | hold => simp only [resetTx, hs]

/-- LINE_RESET sets the line's transmit unit and reaches nothing else: no counter, no notice, no report. -/
theorem resetTx_eq (s : State) (i : LineId) : resetTx s i = s.setTx i (s.line i).tx.afterLineReset := by
  by_cases h : (s.line i).tx.state = .data
  · rw [resetTx_of_data h, TxUnit.afterLineReset, if_pos h]
  · have last : ((s.line i).tx.queue.take 1).tail = [] := by simp [← List.drop_one]
    rw [resetTx_of_not_data h, TxUnit.dropOldest_of_last last, TxUnit.afterLineReset, if_neg h]

/-! ### The line at LINE_RESET (R16, R36) -/

/-- The line LINE_RESET leaves: its settings, an OFF receiver, a CLOSED assembler, the cut transmit unit. -/
def Line.afterLineReset (l : Line) : Line :=
  { l with rx := Receiver.off, msg := none, tx := l.tx.afterLineReset }

/-- Receiver, assembler and transmit unit are set one after the other, which comes to one update of the line. -/
theorem lineReset_eq (s : State) (i : LineId) :
    lineReset s i = .ok (s.setLine i (s.line i).afterLineReset) [] := by
  unfold lineReset
  rw [resetTx_eq]
  simp [State.setRx, State.setMsg, State.setTx, Line.afterLineReset]

/-- A line's byte hands the request to that line. -/
@[simp] theorem withLine_quadByte (s : State) (i : LineId) (act : LineId → Answer) :
    withLine s (quadByte i) act = act i := by
  simp [withLine]

/-- Settles O16: LINE_RESET is answered OK, and the part is left as it was but for the line it names. -/
theorem lineResetDiscards : Obligations.LineResetDiscards := by
  intro tag i s s1 hTaken
  have acts : withLine s1 (quadByte i) (fun j => lineReset s1 j) =
      .ok (s1.setLine i (s1.line i).afterLineReset) [] := by
    rw [withLine_quadByte, lineReset_eq]
  have noReset : (s1.setLine i (s1.line i).afterLineReset).link.resetTaken = false := hTaken.resetTaken
  exact congrArg Host.Outcome.next (serve_answered (a := .ok _ []) hTaken rfl acts noReset)

end Sys2Proof.Machine

/-! PROOFS. TIMER_CONTROL start and stop (R51, R52, R56): the request reaches the unit it names in every state of the
unit, and changes nothing but that unit. -/

namespace Sys2Proof.Machine

/-! ### The unit a request names (R56) -/

/-- A timer unit's byte hands the request to that unit. -/
@[simp] theorem withUnit_quadByte (s : State) (u : UnitId) (act : UnitId → Answer) :
    withUnit s (quadByte u) act = act u := by
  simp [withUnit]

/-- The operation of a TIMER_CONTROL is its second byte, whatever unit the first one names. -/
@[simp] theorem timerOperation_pair (b op : Byte) : timerOperation [b, op] = some op := rfl

/-! ### A unit started and stopped (R51, R52) -/

/-- A start does not ask for the unit's state: RUNNING and EXPIRED units start again, under a new generation. -/
theorem State.startTimer_eq (s : State) (u : UnitId) :
    s.startTimer u =
      s.setTimer u { s.timer u with
        count := 0, generation := (s.timer u).generation + 1, state := .running } := rfl

/-- A stop does not ask for the unit's state either, and keeps the count. -/
theorem State.stopTimer_eq (s : State) (u : UnitId) :
    s.stopTimer u = s.setTimer u { s.timer u with state := .idle } := rfl

@[simp] theorem State.startTimer_link (s : State) (u : UnitId) : (s.startTimer u).link = s.link := by
  rw [State.startTimer_eq, State.setTimer_link]

@[simp] theorem State.stopTimer_link (s : State) (u : UnitId) : (s.stopTimer u).link = s.link := by
  rw [State.stopTimer_eq, State.setTimer_link]

/-! ### TIMER_CONTROL taken (R56) -/

/-- A TIMER_CONTROL whose operation changes the unit named and keeps the link is replied OK. -/
theorem serve_timerControl {tag : Byte} {u : UnitId} {op : Byte} {s s1 : State} {act : State → List Byte → Answer}
    {change : UnitId → State} (hTaken : TakenAs s ⟨tag, 0x24, [quadByte u, op]⟩ s1)
    (acts : act s1 [quadByte u, op] = withUnit s1 (quadByte u) fun v => .ok (change v) [])
    (keepsLink : (change u).link = s1.link) :
    serve s ⟨tag, 0x24, [quadByte u, op]⟩ (exactly 2) act =
      answered s1 (change u) ⟨tag, 0x24, [quadByte u, op]⟩ .ok [] := by
  have done : act s1 [quadByte u, op] = .ok (change u) [] := by rw [acts, withUnit_quadByte]
  have noReset : (change u).link.resetTaken = false := by rw [keepsLink, hTaken.resetTaken]
  exact serve_answered (a := .ok _ []) hTaken rfl done noReset

/-- Operation code 0 stands in the row TIMER_CONTROL_START, as it is neither STOP nor CAPTURE: the unit is started. -/
theorem exec_timerControlStart_taken {tag : Byte} {u : UnitId} {s s1 : State}
    (hTaken : TakenAs s ⟨tag, 0x24, [quadByte u, 0]⟩ s1) :
    exec (.timerControlStart tag [quadByte u, 0]) s =
      .next (answered s1 (s1.startTimer u) ⟨tag, 0x24, [quadByte u, 0]⟩ .ok []) := by
  have ownRow : ¬(timerOperation [quadByte u, 0] = some 1 ∨ timerOperation [quadByte u, 0] = some 2) := by simp
  change execTimerControlStart tag [quadByte u, 0] s = _
  rw [execTimerControlStart, if_neg ownRow,
    serve_timerControl (change := s1.startTimer) hTaken (if_pos rfl) (s1.startTimer_link u)]

/-- Operation code 1 stands in the row TIMER_CONTROL_STOP: the unit is stopped. -/
theorem exec_timerControlStop_taken {tag : Byte} {u : UnitId} {s s1 : State}
    (hTaken : TakenAs s ⟨tag, 0x24, [quadByte u, 1]⟩ s1) :
    exec (.timerControlStop tag [quadByte u, 1]) s =
      .next (answered s1 (s1.stopTimer u) ⟨tag, 0x24, [quadByte u, 1]⟩ .ok []) := by
  have ownRow : timerOperation [quadByte u, 1] = some 1 := timerOperation_pair _ _
  change execTimerControlStop tag [quadByte u, 1] s = _
  rw [execTimerControlStop, if_pos ownRow,
    serve_timerControl (change := s1.stopTimer) hTaken rfl (s1.stopTimer_link u)]

/-- Settles O28: both operations are taken in every state of the unit, and set that unit alone. -/
theorem timerStartAndStop : Obligations.TimerStartAndStop := by
  constructor
  · intro tag u s s1 hTaken
    rw [exec_timerControlStart_taken hTaken, State.startTimer_eq]
  · intro tag u s s1 hTaken
    rw [exec_timerControlStop_taken hTaken, State.stopTimer_eq]

end Sys2Proof.Machine

/-! PROOFS. The trigger sequencer's requests: arming and disarming (R76 to R78), the forced fire (R86, R87), the masks,
the flags and the output (R79, R80, R88, R89, R93, R94). -/

namespace Sys2Proof.Machine

/-! ### A request that leaves the RESET mark alone -/

/-- A request whose act leaves the RESET mark alone is replied by the handler, as `answered` has it, with whatever
status and content the act forms. -/
theorem serve_answered_of_keeps {s s1 : State} {req : Request} {fits : Nat → Bool}
    {act : State → List Byte → Answer}
    (hTaken : TakenAs s req s1) (admitted : fits req.payload.length = true)
    (keeps : (act s1 req.payload).state.link.resetTaken = s1.link.resetTaken) :
    serve s req fits act =
      answered s1 (act s1 req.payload).state req (act s1 req.payload).status (act s1 req.payload).content :=
  serve_answered hTaken admitted rfl (keeps.trans hTaken.resetTaken)

/-! ### The guard unit of a step (R52, R77) -/

/-- Without a guard there is nothing to stop. -/
theorem State.stopGuard_of_none {s : State} {st : Option StepRecord} (h : st.bind (·.guard) = none) :
    s.stopGuard st = s := by
  simp only [State.stopGuard, h]

/-- A guard is stopped as every unit is (R52). -/
theorem State.stopGuard_of_some {s : State} {st : Option StepRecord} {u : UnitId} (h : st.bind (·.guard) = some u) :
    s.stopGuard st = s.stopTimer u := by
  simp only [State.stopGuard, h, State.stopTimer]

/-- A step without a guard becomes current with its counter at 0, and no unit starts. -/
theorem State.enterStep_of_none {s : State} {i : Fin 16} (h : s.seq.table[i.val]?.bind (·.guard) = none) :
    s.enterStep i = s.setSeq { s.seq with current := i, occurrence := 0 } := by
  simp only [State.enterStep, Sequencer.step?, State.setSeq_seq, h]

/-- A step with a guard starts it as well, and keeps the generation the start gave it (R77). -/
theorem State.enterStep_of_some {s : State} {i : Fin 16} {u : UnitId}
    (h : s.seq.table[i.val]?.bind (·.guard) = some u) :
    s.enterStep i =
      (s.startTimer u).setSeq
        { s.seq with current := i, occurrence := 0, guardGen := (s.timer u).generation + 1 } := by
  simp only [State.enterStep, Sequencer.step?, State.setSeq_seq, h, State.startTimer_eq, State.timer_setTimer_same]
  rfl

@[simp] theorem State.enterStep_link (s : State) (i : Fin 16) : (s.enterStep i).link = s.link := by
  cases h : s.seq.table[i.val]?.bind (·.guard) with
  | none => rw [State.enterStep_of_none h, State.setSeq_link]
  | some u => rw [State.enterStep_of_some h, State.setSeq_link, State.startTimer_link]

/-! ### SEQ_ARM (R76, R77) -/

theorem seqArm_of_armed {s : State} (h : s.seq.state = .armed) : seqArm s = .refuse s .state := by
  rw [seqArm, if_pos h]

theorem seqArm_of_empty {s : State} (h : s.seq.state ≠ .armed) (empty : s.seq.table = []) :
    seqArm s = .refuse s .rule := by
  rw [seqArm, if_neg h, if_pos (by rw [empty]; rfl)]

/-- The sequencer as SEQ_ARM clears it before step 0 is entered (R76). -/
def Sequencer.cleared (q : Sequencer) : Sequencer :=
  { q with flags := 0, link := none, queue := [], out := q.out.release, cause := .none }

/-- With a table loaded, the cleared sequencer enters step 0 and is ARMED. -/
theorem seqArm_of_loaded {s : State} (h : s.seq.state ≠ .armed) (loaded : s.seq.table ≠ []) :
    seqArm s =
      .ok (((s.setSeq s.seq.cleared).enterStep 0).setSeq
        { ((s.setSeq s.seq.cleared).enterStep 0).seq with state := .armed }) [] := by
  rw [seqArm, if_neg h, if_neg (by simpa using loaded)]
  rfl

theorem seqArm_link (s : State) : (seqArm s).state.link = s.link := by
  by_cases h : s.seq.state = .armed
  · rw [seqArm_of_armed h]; rfl
  · by_cases empty : s.seq.table = []
    · rw [seqArm_of_empty h empty]; rfl
    · rw [seqArm_of_loaded h empty]
      exact ((s.setSeq s.seq.cleared).enterStep_link 0)

theorem exec_seqArm_taken {tag : Byte} {s s1 : State} (hTaken : TakenAs s ⟨tag, 0x41, []⟩ s1) :
    exec (.seqArm tag []) s =
      .next (answered s1 (seqArm s1).state ⟨tag, 0x41, []⟩ (seqArm s1).status (seqArm s1).content) :=
  congrArg Host.Outcome.next (serve_answered_of_keeps hTaken rfl (congrArg Link.resetTaken (seqArm_link s1)))

/-! ### SEQ_DISARM (R78) -/

/-- IDLE with the output released, which is where every SEQ_DISARM ends (R78). -/
def Sequencer.disarmed (q : Sequencer) : Sequencer := { q with state := .idle, out := q.out.release }

/-- Outside ARMED no unit is stopped; in ARMED the current step's guard is. -/
theorem seqDisarm_eq (s : State) :
    seqDisarm s =
      .ok ((if s.seq.state = .armed then s.stopGuard s.seq.step? else s).setSeq s.seq.disarmed) [] := by
  unfold seqDisarm
  split_ifs
  · simp only [State.stopGuard_seq, Sequencer.disarmed]
  · rfl

theorem seqDisarm_of_no_guard {s : State} (h : s.seq.state ≠ .armed ∨ s.seq.step?.bind (·.guard) = none) :
    seqDisarm s = .ok (s.setSeq s.seq.disarmed) [] := by
  rw [seqDisarm_eq]
  split_ifs with armed
  · rw [State.stopGuard_of_none (h.resolve_left (not_not_intro armed))]
  · rfl

theorem seqDisarm_of_guard {s : State} {u : UnitId} (armed : s.seq.state = .armed)
    (h : s.seq.step?.bind (·.guard) = some u) :
    seqDisarm s = .ok ((s.stopTimer u).setSeq s.seq.disarmed) [] := by
  rw [seqDisarm_eq, if_pos armed, State.stopGuard_of_some h]

theorem seqDisarm_link (s : State) : (seqDisarm s).state.link = s.link := by
  rw [seqDisarm_eq]
  split_ifs
  · exact s.stopGuard_link _
  · rfl

theorem exec_seqDisarm_taken {tag : Byte} {s s1 : State} (hTaken : TakenAs s ⟨tag, 0x42, []⟩ s1) :
    exec (.seqDisarm tag []) s =
      .next (answered s1 (seqDisarm s1).state ⟨tag, 0x42, []⟩ (seqDisarm s1).status (seqDisarm s1).content) :=
  congrArg Host.Outcome.next (serve_answered_of_keeps hTaken rfl (congrArg Link.resetTaken (seqDisarm_link s1)))

/-- Settles O33: step 0 is entered from the cleared sequencer with the guard's start, and SEQ_DISARM stops the guard
of an ARMED sequencer only. -/
theorem seqArmAndDisarm : Obligations.SeqArmAndDisarm := by
  constructor
  · intro tag s s1 hTaken
    rw [exec_seqArm_taken hTaken]
    refine ⟨fun armed => ?_, fun notArmed empty => ?_,
      fun st rest notArmed table => ⟨fun guard => ?_, fun u guard => ?_⟩⟩
    · rw [seqArm_of_armed armed]; rfl
    · rw [seqArm_of_empty notArmed empty]; rfl
    · have noGuard : (s1.setSeq s1.seq.cleared).seq.table[(0 : Fin 16).val]?.bind (·.guard) = none := by
        simp [Sequencer.cleared, table, guard]
      rw [seqArm_of_loaded notArmed (by simp [table]), State.enterStep_of_none noGuard]
      rfl
    · have guarded : (s1.setSeq s1.seq.cleared).seq.table[(0 : Fin 16).val]?.bind (·.guard) = some u := by
        simp [Sequencer.cleared, table, guard]
      rw [seqArm_of_loaded notArmed (by simp [table]), State.enterStep_of_some guarded]
      rfl
  · intro tag s s1 hTaken
    rw [exec_seqDisarm_taken hTaken]
    refine ⟨fun noGuard => ?_, fun u armed guard => ?_⟩
    · rw [seqDisarm_of_no_guard noGuard]; rfl
    · rw [seqDisarm_of_guard armed guard]; rfl

/-! ### The fire (R86) and SEQ_FORCE (R87) -/

/-- An offer neither reads nor sets the sequencer. -/
theorem State.offerSet_setSeq (s : State) (q : Sequencer) (m : QuadSet) (rec : Rec) :
    (s.setSeq q).offerSet m rec = (s.offerSet m rec).setSeq q := rfl

/-- The cause's code in the TRIGGER notice (R132). -/
theorem triggerPayload_eq (f : FireRecord) :
    triggerPayload f =
      [BitVec.ofNat 8 f.step.val, match f.cause with | .matched => 0 | .elsed => 1 | .forced => 2] ++
        bytesOfNat 4 f.time.toNat ++ [f.tag] := by
  rw [triggerPayload]
  cases f.cause <;> rfl

/-- A fire: the TRIG offer is made to the trigger mask, then the sequencer is FIRED and TRIGGER is raised (R86). -/
theorem State.fire_eq (s : State) (cause : FireCause) :
    s.fire cause =
      { s.offerSet s.seq.trigMask (trigRecord (s.fireRecord cause)) with
        seq := { s.seq with
          state := .fired, lastFire := some (s.fireRecord cause), out := s.seq.out.fire }
        link := (s.offerSet s.seq.trigMask (trigRecord (s.fireRecord cause))).link.raise
          { kind := .trigger, payload := triggerPayload (s.fireRecord cause) } } := by
  simp only [State.fire, State.setSeq_seq, State.offerSet_setSeq]
  rfl

theorem seqForce_of_not_armed {s : State} (h : s.seq.state ≠ .armed) : seqForce s = .refuse s .state := by
  rw [seqForce, if_neg h]

theorem seqForce_of_armed {s : State} (h : s.seq.state = .armed) :
    seqForce s = .ok ((s.stopGuard s.seq.step?).fire .forced) [] := by
  rw [seqForce, if_pos h]

theorem seqForce_resetTaken (s : State) : (seqForce s).state.link.resetTaken = s.link.resetTaken := by
  by_cases h : s.seq.state = .armed
  · rw [seqForce_of_armed h]
    exact (State.fire_resetTaken _ _).trans (congrArg Link.resetTaken (s.stopGuard_link _))
  · rw [seqForce_of_not_armed h]; rfl

theorem exec_seqForce_taken {tag : Byte} {s s1 : State} (hTaken : TakenAs s ⟨tag, 0x43, []⟩ s1) :
    exec (.seqForce tag []) s =
      .next (answered s1 (seqForce s1).state ⟨tag, 0x43, []⟩ (seqForce s1).status (seqForce s1).content) :=
  congrArg Host.Outcome.next (serve_answered_of_keeps hTaken rfl (seqForce_resetTaken s1))

/-- Settles O34: the guard stops before the fire, whose parts are R86's. -/
theorem seqForceFires : Obligations.SeqForceFires := by
  constructor
  · intro tag s s1 hTaken
    rw [exec_seqForce_taken hTaken]
    refine ⟨fun notArmed => ?_, fun armed => ⟨fun noGuard => ?_, fun u guard => ?_⟩⟩
    · rw [seqForce_of_not_armed notArmed]; rfl
    · rw [seqForce_of_armed armed, State.stopGuard_of_none noGuard]; rfl
    · rw [seqForce_of_armed armed, State.stopGuard_of_some guard]; rfl
  · intro s o cause f hf ho
    have record : f = s.fireRecord cause := hf
    have ofCause : f.cause = cause := congrArg FireRecord.cause hf
    rw [State.fire_eq, ← record, ← ho, triggerPayload_eq, ofCause]
    rfl

/-! ### SEQ_MASKS (R88) -/

theorem seqMasks_of_range {s : State} {tm mm : Byte} (h : 16 ≤ tm.toNat ∨ 16 ≤ mm.toNat) :
    seqMasks s tm mm = .refuse s .range := by
  rcases h with h | h
  · simp only [seqMasks, quadSetOfByte_above h]
  · cases ht : quadSetOfByte tm <;> simp only [seqMasks, ht, quadSetOfByte_above h]

theorem seqMasks_of_masks {s : State} {tm mm : Byte} {t m : QuadSet} (ht : tm.toNat = t.toNat)
    (hm : mm.toNat = m.toNat) :
    seqMasks s tm mm = .ok (s.setSeq { s.seq with trigMask := t, markMask := m }) [] := by
  simp only [seqMasks, quadSetOfByte_of_toNat ht, quadSetOfByte_of_toNat hm]

theorem seqMasks_link (s : State) (tm mm : Byte) : (seqMasks s tm mm).state.link = s.link := by
  unfold seqMasks
  split <;> rfl

theorem exec_seqMasks_taken {tag tm mm : Byte} {s s1 : State} (hTaken : TakenAs s ⟨tag, 0x45, [tm, mm]⟩ s1) :
    exec (.seqMasks tag [tm, mm]) s =
      .next (answered s1 (seqMasks s1 tm mm).state ⟨tag, 0x45, [tm, mm]⟩ (seqMasks s1 tm mm).status
        (seqMasks s1 tm mm).content) :=
  congrArg Host.Outcome.next (serve_answered_of_keeps hTaken rfl (congrArg Link.resetTaken (seqMasks_link s1 tm mm)))

/-! ### FLAGS_WRITE (R79, R80, R89) -/

theorem flagsWrite_of_overlap {s : State} {a b : Byte} (h : a &&& b ≠ 0) :
    flagsWrite s a b = .refuse s .range := by
  rw [flagsWrite, if_pos h]

theorem flagsWrite_of_not_armed {s : State} {a b : Byte} (h : a &&& b = 0) (notArmed : s.seq.state ≠ .armed) :
    flagsWrite s a b = .ok (s.setSeq { s.seq with flags := (s.seq.flags ||| a) &&& ~~~b }) [] := by
  rw [flagsWrite, if_neg (not_not_intro h), if_neg notArmed, applyFlags]

theorem flagsWrite_of_place {s : State} {a b : Byte} (h : a &&& b = 0) (armed : s.seq.state = .armed)
    (place : s.seq.queue.length < 16) : flagsWrite s a b = .ok (s.joinQueue (.host a b)) [] := by
  rw [flagsWrite, if_neg (not_not_intro h), if_pos armed]
  exact if_pos place

theorem flagsWrite_of_full {s : State} {a b : Byte} (h : a &&& b = 0) (armed : s.seq.state = .armed)
    (full : 16 ≤ s.seq.queue.length) : flagsWrite s a b = ⟨s.joinQueue (.host a b), .full, []⟩ := by
  rw [flagsWrite, if_neg (not_not_intro h), if_pos armed]
  exact if_neg (Nat.not_lt.mpr full)

/-- An event lost by an ARMED sequencer is counted, its guard stops, and it faults with EVENT_LOSS (R79, R89). -/
theorem State.joinQueue_of_full_armed {s : State} (full : 16 ≤ s.seq.queue.length) (armed : s.seq.state = .armed)
    (e : SeqEvent) :
    s.joinQueue e =
      { s.stopGuard s.seq.step? with
        seq := { s.seq with state := .fault, cause := .eventLoss }
        stats := { s.stats with eventsLost := satInc 0xFFFFFFFF s.stats.eventsLost }
        link := s.link.raise { kind := .seqFault, payload := [1, BitVec.ofNat 8 s.seq.current.val] } } := by
  have noPlace : ¬s.seq.queue.length < Config.eventPlaces := Nat.not_lt.mpr full
  rw [State.joinQueue, if_neg noPlace, if_pos armed]
  cases h : s.seq.step?.bind (·.guard) with
  | none => rw [State.stopGuard_of_none h, State.stopGuard_of_none h]; rfl
  | some u => rw [State.stopGuard_of_some h, State.stopGuard_of_some h]; rfl

theorem flagsWrite_resetTaken (s : State) (a b : Byte) :
    (flagsWrite s a b).state.link.resetTaken = s.link.resetTaken := by
  unfold flagsWrite
  split_ifs
  · rfl
  · exact s.joinQueue_resetTaken _
  · exact s.joinQueue_resetTaken _
  · rfl

theorem exec_flagsWrite_taken {tag a b : Byte} {s s1 : State} (hTaken : TakenAs s ⟨tag, 0x46, [a, b]⟩ s1) :
    exec (.flagsWrite tag [a, b]) s =
      .next (answered s1 (flagsWrite s1 a b).state ⟨tag, 0x46, [a, b]⟩ (flagsWrite s1 a b).status
        (flagsWrite s1 a b).content) :=
  congrArg Host.Outcome.next (serve_answered_of_keeps hTaken rfl (flagsWrite_resetTaken s1 a b))

/-! ### TRIG_OUT (R93) and OUTPUT_CONFIG (R94) -/

/-- TRIG_OUT is asserted by the fire level or by a pulse. -/
theorem TrigOut.asserted_iff (o : TrigOut) : o.asserted = true ↔ o.held = true ∨ o.pulse ≠ none := by
  rw [TrigOut.asserted, Bool.or_eq_true, Option.isSome_iff_ne_none]

/-- The pin stands at its idle level exactly while TRIG_OUT is not asserted. -/
theorem TrigOut.pin_eq_idleLevel_iff (o : TrigOut) : o.pin = o.idleLevel ↔ o.asserted = false := by
  unfold TrigOut.pin
  cases o.idleLevel <;> cases o.asserted <;> decide

/-- A width of two bytes is in range unless it is 0. -/
theorem inRange_width {w0 w1 : Byte} (h : natOfBytes [w0, w1] ≠ 0) :
    inRange 1 65535 (natOfBytes [w0, w1]) = some (natOfBytes [w0, w1]) := by
  have low := w0.isLt
  have high := w1.isLt
  have bound : natOfBytes [w0, w1] ≤ 65535 := by simp only [natOfBytes]; omega
  exact if_pos ⟨Nat.pos_of_ne_zero h, bound⟩

theorem idleLevelOfCode_above {b : Byte} (h : 1 < b.toNat) : idleLevelOfCode b = none := by
  have notLow : b ≠ 0 := by rintro rfl; exact absurd h (by decide)
  have notHigh : b ≠ 1 := by rintro rfl; exact absurd h (by decide)
  rw [idleLevelOfCode, if_neg notLow, if_neg notHigh]

theorem outputModeOfCode_above {b : Byte} (h : 1 < b.toNat) : OutputMode.ofCode b = none := by
  have notLevel : b ≠ 0 := by rintro rfl; exact absurd h (by decide)
  have notPulse : b ≠ 1 := by rintro rfl; exact absurd h (by decide)
  rw [OutputMode.ofCode, if_neg notLevel, if_neg notPulse]

theorem outputConfig_of_asserted {s : State} (h : s.seq.out.asserted = true) (lb mb : Byte) (width : Nat) :
    outputConfig s lb mb width = .refuse s .state := by
  rw [outputConfig, if_pos h]

theorem outputConfig_of_range {s : State} {lb mb : Byte} {width : Nat} (released : s.seq.out.asserted = false)
    (h : 1 < lb.toNat ∨ 1 < mb.toNat ∨ width = 0) : outputConfig s lb mb width = .refuse s .range := by
  rw [outputConfig, if_neg (by simp [released])]
  rcases h with level | mode | rfl
  · rw [idleLevelOfCode_above level]
  · rw [outputModeOfCode_above mode]
    cases idleLevelOfCode lb <;> rfl
  · cases idleLevelOfCode lb <;> cases OutputMode.ofCode mb <;> rfl

theorem outputConfig_of_codes {s : State} {lb mb : Byte} {width : Nat} {l : PinLevel} {m : OutputMode}
    (released : s.seq.out.asserted = false) (level : idleLevelOfCode lb = some l) (mode : OutputMode.ofCode mb = some m)
    (inside : inRange 1 65535 width = some width) :
    outputConfig s lb mb width = .ok (s.setOut { s.seq.out with idleLevel := l, mode := m, width := width }) [] := by
  rw [outputConfig, if_neg (by simp [released]), level, mode, inside]

theorem outputConfig_link (s : State) (lb mb : Byte) (width : Nat) :
    (outputConfig s lb mb width).state.link = s.link := by
  unfold outputConfig
  split_ifs
  · rfl
  · split <;> rfl

theorem exec_outputConfig_taken {tag lb mb w0 w1 : Byte} {s s1 : State}
    (hTaken : TakenAs s ⟨tag, 0x47, [lb, mb, w0, w1]⟩ s1) :
    exec (.outputConfig tag [lb, mb, w0, w1]) s =
      .next (answered s1 (outputConfig s1 lb mb (natOfBytes [w0, w1])).state ⟨tag, 0x47, [lb, mb, w0, w1]⟩
        (outputConfig s1 lb mb (natOfBytes [w0, w1])).status (outputConfig s1 lb mb (natOfBytes [w0, w1])).content) :=
  congrArg Host.Outcome.next
    (serve_answered_of_keeps hTaken rfl (congrArg Link.resetTaken (outputConfig_link s1 lb mb (natOfBytes [w0, w1]))))

/-- Settles O35: each request by the branch its operands and the sequencer's state choose, and the pin by whether
TRIG_OUT is asserted. -/
theorem seqSettingsWritten : Obligations.SeqSettingsWritten := by
  refine ⟨?masks, ?flags, ?pin, ?output⟩
  case masks =>
    intro tag tm mm s s1 hTaken
    rw [exec_seqMasks_taken hTaken]
    refine ⟨fun above => ?_, fun t m ht hm => ?_⟩
    · rw [seqMasks_of_range above]; rfl
    · rw [seqMasks_of_masks ht hm]; rfl
  case flags =>
    intro tag a b s s1 hTaken
    rw [exec_flagsWrite_taken hTaken]
    refine ⟨fun overlap => ?_, fun h notArmed => ?_, fun h armed place => ?_, fun h armed full g hg => ?_⟩
    · rw [flagsWrite_of_overlap overlap]; rfl
    · rw [flagsWrite_of_not_armed h notArmed]; rfl
    · rw [flagsWrite_of_place h armed place, State.joinQueue_of_place place]; rfl
    · have stopped : g = s1.stopGuard s1.seq.step? := hg
      rw [flagsWrite_of_full h armed full, State.joinQueue_of_full_armed full armed, ← stopped]
  case pin =>
    intro o
    refine ⟨o.asserted_iff, fun driven => ?_, fun notHeld noPulse => ?_⟩
    · rw [Ne, o.pin_eq_idleLevel_iff, o.asserted_iff.mpr driven]
      decide
    · rw [o.pin_eq_idleLevel_iff, ← Bool.not_eq_true, o.asserted_iff]
      simp [notHeld, noPulse]
  case output =>
    intro tag lb mb w0 w1 s s1 hTaken
    rw [exec_outputConfig_taken hTaken]
    refine ⟨fun asserted => ?_, fun released outside => ?_, fun l m released level mode nonzero => ?_⟩
    · rw [outputConfig_of_asserted asserted]; rfl
    · rw [outputConfig_of_range released outside]; rfl
    · have levelCode : idleLevelOfCode lb = some l := by rw [level]; cases l <;> rfl
      have modeCode : OutputMode.ofCode mb = some m := by rw [mode]; cases m <;> rfl
      rw [outputConfig_of_codes released levelCode modeCode (inRange_width nonzero)]
      rfl

end Sys2Proof.Machine

/-! PROOFS. Rings of whole records (R101, R127): what runs of words written at the tail leave of the memory, and what
the operations of a region do to the sizes of the records it holds. -/

namespace Sys2Proof.Machine

/-! ### Positions of a ring -/

/-- Two places of the ring, counted from the same position, are the same only when the counts are. -/
theorem Region.advance_inj {r : Region} {p i j : Nat} (hi : i < r.words) (hj : j < r.words)
    (h : r.advance p i = r.advance p j) : i = j := by
  have same : p + i ≡ p + j [MOD r.words] := h
  have cancelled := Nat.ModEq.add_left_cancel' p same
  rwa [Nat.ModEq, Nat.mod_eq_of_lt hi, Nat.mod_eq_of_lt hj] at cancelled

theorem Region.wordAt_inj {r : Region} {p q : Nat} (h : r.wordAt p = r.wordAt q) : p = q := Nat.add_left_cancel h

/-- The words of a placed region lie in capture memory. -/
theorem Region.wordAt_lt {r : Region} {p : Nat} (placed : r.base + r.size ≤ 256) (hp : p < r.words) :
    r.wordAt p < Config.captureWords := by
  simp only [Region.words, Region.wordAt, Config.blockWords, Config.captureWords] at *
  omega

theorem Region.words_pos_of_lt {r : Region} {p : Nat} (hp : p < r.words) : 0 < r.words := Nat.zero_lt_of_lt hp

/-- What an advanced position counts from does not matter beyond its place in the ring. -/
theorem Region.advance_lt_of_lt {r : Region} {p : Nat} (hp : p < r.words) (q n : Nat) : r.advance q n < r.words :=
  Nat.mod_lt _ (Region.words_pos_of_lt hp)

/-! ### Words written in a run -/

/-- A byte outside the words of the run keeps its value. -/
theorem Region.readByte_writeWords_outside (r : Region) (ws : List Word) {m : List Host.Cell} (w : Memory.wf m = true)
    {p a : Nat} (hp : p < r.words) (h : ∀ k, k < ws.length → a / 4 ≠ r.wordAt (r.advance p k)) :
    Memory.readByte (r.writeWords m p ws) a = Memory.readByte m a := by
  induction ws generalizing m p with
  | nil => rfl
  | cons v t ih =>
    have first : a / 4 ≠ r.wordAt p := by
      simpa [Region.advance_zero hp] using h 0 (by simp)
    have later : ∀ k, k < t.length → a / 4 ≠ r.wordAt (r.advance (r.advance p 1) k) := fun k hk => by
      simpa [Nat.add_comm] using h (k + 1) (by simpa using hk)
    rw [Region.writeWords, ih (Memory.writeWord_wf w _ v) (Region.advance_lt_of_lt hp p 1) later,
      Memory.readByte_writeWord_outside w _ _ v first]

/-- A word outside the run keeps its value. -/
theorem Region.readWord_writeWords_outside (r : Region) (ws : List Word) {m : List Host.Cell} (w : Memory.wf m = true)
    {p j : Nat} (hp : p < r.words) (h : ∀ k, k < ws.length → j ≠ r.wordAt (r.advance p k)) :
    Memory.readWord (r.writeWords m p ws) j = Memory.readWord m j := by
  induction ws generalizing m p with
  | nil => rfl
  | cons v t ih =>
    have first : j ≠ r.wordAt p := by
      simpa [Region.advance_zero hp] using h 0 (by simp)
    have later : ∀ k, k < t.length → j ≠ r.wordAt (r.advance (r.advance p 1) k) := fun k hk => by
      simpa [Nat.add_comm] using h (k + 1) (by simpa using hk)
    rw [Region.writeWords, ih (Memory.writeWord_wf w _ v) (Region.advance_lt_of_lt hp p 1) later,
      Memory.readWord_writeWord_other w _ _ v first]

/-- The words of a run no longer than the ring read as written. -/
theorem Region.readWord_writeWords_inside (r : Region) (ws : List Word) {m : List Host.Cell} (w : Memory.wf m = true)
    {p : Nat} (placed : r.base + r.size ≤ 256) (hp : p < r.words) (fits : ws.length ≤ r.words) {k : Nat} {v : Word}
    (hk : ws[k]? = some v) : Memory.readWord (r.writeWords m p ws) (r.wordAt (r.advance p k)) = v := by
  induction ws generalizing m p k with
  | nil => simp at hk
  | cons x t ih =>
    simp only [List.length_cons] at fits
    cases k with
    | zero =>
      obtain rfl : x = v := by simpa using hk
      have apart : ∀ j, j < t.length → r.wordAt (r.advance p 0) ≠ r.wordAt (r.advance (r.advance p 1) j) := by
        intro j hj e
        rw [Region.advance_advance] at e
        have := Region.advance_inj (by omega) (by omega) (Region.wordAt_inj e)
        omega
      rw [Region.writeWords, Region.readWord_writeWords_outside r t (Memory.writeWord_wf w _ x)
        (Region.advance_lt_of_lt hp p 1) apart, Region.advance_zero hp,
        Memory.readWord_writeWord_same w _ x (Region.wordAt_lt placed hp)]
    | succ k =>
      have step : r.advance p (k + 1) = r.advance (r.advance p 1) k := by
        rw [Region.advance_advance, Nat.add_comm]
      rw [Region.writeWords, step]
      exact ih (Memory.writeWord_wf w _ x) (Region.advance_lt_of_lt hp p 1) (by omega) (by simpa using hk)

/-! ### Chains of headers -/

/-- A chain is read from the words it covers alone. -/
theorem Region.chain_of_same_words {m m' : List Host.Cell} {r : Region} (l : List Nat) {p : Nat} (hp : p < r.words)
    (same : ∀ k, k < l.sum →
      Memory.readWord m' (r.wordAt (r.advance p k)) = Memory.readWord m (r.wordAt (r.advance p k)))
    (h : r.chain m p l) : r.chain m' p l := by
  induction l generalizing p with
  | nil => trivial
  | cons z t ih =>
    obtain ⟨size, two, rest⟩ := h
    have head : Memory.readWord m' (r.wordAt p) = Memory.readWord m (r.wordAt p) := by
      simpa [Region.advance_zero hp] using same 0 (by simp only [List.sum_cons]; omega)
    refine ⟨by rw [Region.headerAt, head]; exact size, two, ih (Region.advance_lt_of_lt hp p z) ?_ rest⟩
    intro k hk
    rw [Region.advance_advance]
    exact same (z + k) (by simp only [List.sum_cons]; omega)

/-- Two chains, the second from where the first ends, are one chain. -/
theorem Region.chain_append_intro {m : List Host.Cell} {r : Region} (a : List Nat) {b : List Nat} {p : Nat}
    (hp : p < r.words) (ha : r.chain m p a) (hb : r.chain m (r.advance p a.sum) b) : r.chain m p (a ++ b) := by
  induction a generalizing p with
  | nil => simpa [Region.advance_zero hp] using hb
  | cons z t ih =>
    obtain ⟨size, two, rest⟩ := ha
    refine ⟨size, two, ih (Region.advance_lt_of_lt hp p z) rest ?_⟩
    simpa using hb

theorem Region.chain_left {m : List Host.Cell} {r : Region} (a : List Nat) {b : List Nat} {p : Nat}
    (h : r.chain m p (a ++ b)) : r.chain m p a := by
  induction a generalizing p with
  | nil => trivial
  | cons z t ih => exact ⟨h.1, h.2.1, ih h.2.2⟩

/-- The header at the n-th record of a chain carries that record's size. -/
theorem Region.chain_header {m : List Host.Cell} {r : Region} (l : List Nat) {p : Nat} (hp : p < r.words)
    (h : r.chain m p l) {n z : Nat} (hn : l[n]? = some z) :
    headerSize (r.headerAt m (r.advance p (l.take n).sum)) = z := by
  induction l generalizing p n with
  | nil => simp at hn
  | cons x t ih =>
    obtain ⟨size, _, rest⟩ := h
    cases n with
    | zero =>
      obtain rfl : x = z := by simpa using hn
      simpa [Region.advance_zero hp] using size
    | succ n =>
      have := ih (Region.advance_lt_of_lt hp p x) rest (by simpa using hn)
      simpa using this

/-! ### A ring that holds records of known sizes -/

/-- From the head on, the region holds records of these sizes, the read ones first, and its counts are theirs. -/
structure Region.Holds (m : List Host.Cell) (r : Region) (read unread : List Nat) : Prop where
  chain : r.chain m r.head (read ++ unread)
  count : r.count = (read ++ unread).length
  used : r.used = (read ++ unread).sum
  unread : r.unread = unread.sum
  cursor : r.cursor = r.advance r.head read.sum

theorem Region.whole_iff (m : List Host.Cell) (r : Region) :
    r.Whole m ↔ (∃ read unread : List Nat, r.Holds m read unread) ∧ r.tail = r.advance r.head r.used := by
  constructor
  · rintro ⟨read, unread, chain, count, used, unreadWords, cursor, tail⟩
    exact ⟨⟨read, unread, ⟨chain, count, used, unreadWords, cursor⟩⟩, tail⟩
  · rintro ⟨⟨read, unread, h⟩, tail⟩
    exact ⟨read, unread, h.chain, h.count, h.used, h.unread, h.cursor, tail⟩

theorem Region.advance_congr {r t : Region} (size : t.size = r.size) (p n : Nat) : t.advance p n = r.advance p n := by
  simp only [Region.advance, Region.words, size]

/-- Only a region's placement, its positions and its counts say what it holds. -/
theorem Region.Holds.congr {m : List Host.Cell} {r t : Region} {read unread : List Nat} (h : r.Holds m read unread)
    (base : t.base = r.base) (size : t.size = r.size) (head : t.head = r.head) (cursor : t.cursor = r.cursor)
    (used : t.used = r.used) (unreadWords : t.unread = r.unread) (count : t.count = r.count) :
    t.Holds m read unread where
  chain := by rw [head]; exact (Region.chain_congr base size _ _).2 h.chain
  count := count.trans h.count
  used := used.trans h.used
  unread := unreadWords.trans h.unread
  cursor := by rw [cursor, head, Region.advance_congr size]; exact h.cursor

/-- A region holds what it held when the words it uses keep their values. -/
theorem Region.Holds.of_same_words {m m' : List Host.Cell} {r : Region} {read unread : List Nat}
    (h : r.Holds m read unread) (head : r.head < r.words)
    (same : ∀ k, k < r.used →
      Memory.readWord m' (r.wordAt (r.advance r.head k)) = Memory.readWord m (r.wordAt (r.advance r.head k))) :
    r.Holds m' read unread :=
  { h with chain := Region.chain_of_same_words _ head (fun k hk => same k (h.used ▸ hk)) h.chain }

theorem Region.Holds.sizes {m : List Host.Cell} {r : Region} {read unread : List Nat} (h : r.Holds m read unread) :
    ∀ z ∈ read ++ unread, 2 ≤ z := Region.chain_sizes _ h.chain

/-- An emptied region holds no record. -/
theorem Region.Holds.of_empty (m : List Host.Cell) {r : Region} (head : r.head = 0) (cursor : r.cursor = 0)
    (used : r.used = 0) (unread : r.unread = 0) (count : r.count = 0) : r.Holds m [] [] where
  chain := trivial
  count := count
  used := used
  unread := unread
  cursor := by simp [head, cursor, Region.advance]

/-- Records of at least two words whose sizes add up to 0 are none. -/
theorem eq_nil_of_sum_eq_zero {l : List Nat} (two : ∀ z ∈ l, 2 ≤ z) (h : l.sum = 0) : l = [] := by
  cases l with
  | nil => rfl
  | cons z t =>
    have := two z (by simp)
    simp only [List.sum_cons] at h
    omega

/-- The cursor stands at the head exactly when no record held has been read. -/
theorem Region.Holds.cursorAtHead_iff {m : List Host.Cell} {r : Region} {read unread : List Nat}
    (h : r.Holds m read unread) : r.cursorAtHead = true ↔ read = [] := by
  have sum : r.used = read.sum + r.unread := by rw [h.used, h.unread, List.sum_append]
  rw [Region.cursorAtHead, beq_iff_eq]
  constructor
  · intro e
    exact eq_nil_of_sum_eq_zero (fun z hz => h.sizes z (List.mem_append_left _ hz)) (by omega)
  · rintro rfl
    simpa using sum.symm

/-! ### Writing at the tail (R107) -/

theorem Placed.write_mem (p : Placed) (ws : List Word) :
    (p.write ws).mem = p.region.writeWords p.mem p.region.tail ws := rfl

theorem Placed.write_region (p : Placed) (ws : List Word) :
    (p.write ws).region =
      { p.region with
        tail := p.region.advance p.region.tail ws.length, used := p.region.used + ws.length
        unread := p.region.unread + ws.length, count := p.region.count + 1
        written := satInc Config.count32Max p.region.written } := rfl

/-- The header of these words carries their number, which is at least two (R127). -/
def Sized (ws : List Word) : Prop := 2 ≤ ws.length ∧ ∃ h, ws[0]? = some h ∧ headerSize h = ws.length

/-- The words written end where the tail then stands. -/
theorem Placed.write_tail {p : Placed} (tail : p.region.tail = p.region.advance p.region.head p.region.used)
    (ws : List Word) :
    (p.write ws).region.tail = (p.write ws).region.advance (p.write ws).region.head (p.write ws).region.used := by
  simp only [Placed.write_region, tail]
  exact Region.advance_advance _ _ _ _

/-- A record written at the tail becomes the newest record held. -/
theorem Region.Holds.write {p : Placed} {read unread : List Nat} (h : p.region.Holds p.mem read unread)
    (tail : p.region.tail = p.region.advance p.region.head p.region.used) (w : Memory.wf p.mem = true)
    (placed : p.region.base + p.region.size ≤ 256) (head : p.region.head < p.region.words)
    {ws : List Word} (sized : Sized ws) (fits : p.region.used + ws.length ≤ p.region.words) :
    (p.write ws).region.Holds (p.write ws).mem read (unread ++ [ws.length]) := by
  obtain ⟨two, header, first, size⟩ := sized
  have atTail : p.region.tail < p.region.words := by
    rw [tail]; exact Region.advance_lt_of_lt head _ _
  have kept : p.region.chain (p.write ws).mem p.region.head (read ++ unread) := by
    refine Region.chain_of_same_words _ head (fun k hk => ?_) h.chain
    refine Region.readWord_writeWords_outside _ ws w atTail (fun j hj e => ?_)
    rw [tail, Region.advance_advance] at e
    have := Region.advance_inj (by rw [h.used] at fits; omega) (by omega) (Region.wordAt_inj e)
    rw [h.used] at this
    omega
  have newest : p.region.chain (p.write ws).mem (p.region.advance p.region.head (read ++ unread).sum) [ws.length] := by
    refine ⟨?_, two, trivial⟩
    have at0 := Region.readWord_writeWords_inside _ ws w placed atTail (by omega) first
    rw [Region.advance_zero atTail] at at0
    rw [← h.used, ← tail, Region.headerAt, Placed.write_mem, at0, size]
  have whole : (p.write ws).region.chain (p.write ws).mem p.region.head (read ++ unread ++ [ws.length]) :=
    (Region.chain_congr (r := p.region) (t := (p.write ws).region) rfl rfl _ _).2
      (Region.chain_append_intro _ head kept newest)
  refine ⟨by rw [← List.append_assoc]; exact whole, ?_, ?_, ?_, h.cursor⟩
  · simp only [Placed.write_region, h.count, List.length_append, List.length_cons, List.length_nil]
    omega
  · simp only [Placed.write_region, h.used, List.sum_append, List.sum_cons, List.sum_nil]
    omega
  · simp only [Placed.write_region, h.unread, List.sum_append, List.sum_cons, List.sum_nil]
    omega

/-! ### One record leaves the head (R108, R120) -/

theorem Region.Holds.head_size {m : List Host.Cell} {r : Region} {read unread : List Nat} (h : r.Holds m read unread)
    {z : Nat} {rest : List Nat} (list : read ++ unread = z :: rest) : headerSize (r.headerAt m r.head) = z := by
  have chain := h.chain
  rw [list] at chain
  exact chain.1

/-- A read record discarded from the head leaves the rest. -/
theorem Region.Holds.discard_read {m : List Host.Cell} {r : Region} {z : Nat} {read unread : List Nat}
    (h : r.Holds m (z :: read) unread) : (r.discard m).Holds m read unread := by
  have size : headerSize (r.headerAt m r.head) = z := h.head_size rfl
  have behind : r.cursorAtHead = false := by
    rw [← Bool.not_eq_true, h.cursorAtHead_iff]; simp
  have used : r.used = z + (read ++ unread).sum := by simpa [Nat.add_assoc] using h.used
  have count : r.count = (read ++ unread).length + 1 := by simpa using h.count
  refine ⟨?_, ?_, ?_, ?_, ?_⟩
  · rw [show (r.discard m).head = r.advance r.head z by simp only [Region.discard, size]]
    exact (Region.chain_congr (r := r) (t := r.discard m) rfl rfl _ _).2 h.chain.2.2
  · simp only [Region.discard, count]; omega
  · simp only [Region.discard, size, used]; omega
  · simp [Region.discard, behind, h.unread]
  · have cursor := h.cursor
    simp only [Region.discard, size, behind, Region.advance_congr (r := r), List.sum_cons] at cursor ⊢
    simpa using cursor

/-- The oldest unread record discarded takes the cursor with it. -/
theorem Region.Holds.discard_unread {m : List Host.Cell} {r : Region} {z : Nat} {unread : List Nat}
    (h : r.Holds m [] (z :: unread)) : (r.discard m).Holds m [] unread := by
  have size : headerSize (r.headerAt m r.head) = z := h.head_size rfl
  have atHead : r.cursorAtHead = true := h.cursorAtHead_iff.2 rfl
  have used : r.used = z + unread.sum := by simpa using h.used
  have unreadWords : r.unread = z + unread.sum := by simpa using h.unread
  have count : r.count = unread.length + 1 := by simpa using h.count
  refine ⟨?_, ?_, ?_, ?_, ?_⟩
  · rw [show (r.discard m).head = r.advance r.head z by simp only [Region.discard, size]]
    exact (Region.chain_congr (r := r) (t := r.discard m) rfl rfl _ _).2 h.chain.2.2
  · simp only [Region.discard, count]; simp
  · simp only [Region.discard, size, used]; simp
  · simp [Region.discard, size, atHead, unreadWords]
  · simp [Region.discard, size, atHead, Region.advance, Region.words]

/-- The oldest record discarded, read or not, leaves the others. -/
theorem Region.Holds.discard {m : List Host.Cell} {r : Region} {read unread : List Nat} (h : r.Holds m read unread)
    (held : 0 < (read ++ unread).length) : (r.discard m).Holds m (read.drop 1) (unread.drop (1 - read.length)) := by
  cases read with
  | cons z read => simpa using h.discard_read
  | nil =>
    cases unread with
    | cons z unread => simpa using h.discard_unread
    | nil => simp at held

/-- A read record freed from the head leaves the rest. -/
theorem Region.Holds.freeHead {m : List Host.Cell} {r : Region} {z : Nat} {read unread : List Nat}
    (h : r.Holds m (z :: read) unread) : (r.freeHead m).Holds m read unread := by
  have behind : r.cursorAtHead = false := by
    rw [← Bool.not_eq_true, h.cursorAtHead_iff]; simp
  refine h.discard_read.congr rfl rfl rfl ?_ rfl ?_ rfl <;> simp [Region.discard, Region.freeHead, behind]

end Sys2Proof.Machine

/-! PROOFS. Records leaving a region and records read from it: making room under ROLL (R108), RELEASE (R120) and READ
(R119), each as so many whole records. -/

namespace Sys2Proof.Machine

/-! ### Several records leave the head -/

/-- The region after its `k` oldest records have been discarded. -/
def Region.discards (m : List Host.Cell) (k : Nat) (r : Region) : Region := (Region.discard m)^[k] r

@[simp] theorem Region.discards_zero (m : List Host.Cell) (r : Region) : Region.discards m 0 r = r := rfl

theorem Region.discards_succ_front (m : List Host.Cell) (k : Nat) (r : Region) :
    Region.discards m (k + 1) r = Region.discards m k (r.discard m) := rfl

theorem Region.discards_succ (m : List Host.Cell) (k : Nat) (r : Region) :
    Region.discards m (k + 1) r = (Region.discards m k r).discard m := Function.iterate_succ_apply' _ _ _

/-- Discarding leaves a region's placement, settings, state, tail and refusals. -/
theorem Region.discards_keeps (m : List Host.Cell) (k : Nat) (r : Region) :
    Region.discards m k r =
      { r with
        head := (Region.discards m k r).head, cursor := (Region.discards m k r).cursor
        used := (Region.discards m k r).used, unread := (Region.discards m k r).unread
        count := (Region.discards m k r).count, overwritten := (Region.discards m k r).overwritten
        unreadLost := (Region.discards m k r).unreadLost, hasTrig := (Region.discards m k r).hasTrig } := by
  induction k with
  | zero => rfl
  | succ k ih =>
    rw [Region.discards_succ]
    generalize Region.discards m k r = t at ih
    rw [ih]
    rfl

@[simp] theorem Region.discards_words (m : List Host.Cell) (k : Nat) (r : Region) :
    (Region.discards m k r).words = r.words := by rw [Region.discards_keeps]; rfl

/-- Making room discards the oldest records, one more only while the room is short (R108). -/
theorem Region.makeRoom_eq_discards (m : List Host.Cell) (n : Nat) (r : Region) (need : Nat) :
    ∃ k, k ≤ n ∧ Region.makeRoom m n r need = Region.discards m k r ∧
      (∀ j, j < k → (Region.discards m j r).free < need) ∧ (k = n ∨ need ≤ (Region.discards m k r).free) := by
  induction n generalizing r with
  | zero => exact ⟨0, le_refl _, rfl, by simp, .inl rfl⟩
  | succ n ih =>
    by_cases room : need ≤ r.free
    · exact ⟨0, Nat.zero_le _, by rw [Region.makeRoom, if_pos room]; rfl, by simp, .inr room⟩
    · obtain ⟨k, hk, made, short, done⟩ := ih (r.discard m)
      refine ⟨k + 1, by omega, by rw [Region.makeRoom, if_neg room, made]; rfl, fun j hj => ?_,
        done.imp (by omega) id⟩
      cases j with
      | zero => exact Nat.lt_of_not_le room
      | succ j => exact short j (by omega)

section
variable {m : List Host.Cell} {r : Region} {read unread : List Nat}

/-- The records that stay are those that were held behind the ones discarded. -/
theorem Region.Holds.discards (h : r.Holds m read unread) {k : Nat} (hk : k ≤ (read ++ unread).length) :
    (Region.discards m k r).Holds m (read.drop k) (unread.drop (k - read.length)) := by
  induction k with
  | zero => simpa using h
  | succ k ih =>
    have left : 0 < (read.drop k ++ unread.drop (k - read.length)).length := by
      simp only [List.length_append, List.length_drop] at hk ⊢
      omega
    have next := (ih (by omega)).discard left
    rw [Region.discards_succ]
    simp only [List.drop_drop, List.length_drop] at next
    rwa [show k - read.length + (1 - (read.length - k)) = k + 1 - read.length by omega] at next

theorem drop_append_drop (k : Nat) : read.drop k ++ unread.drop (k - read.length) = (read ++ unread).drop k :=
  (List.drop_append (l₁ := read)).symm

/-- The oldest record after `k` discards is the k-th of those that were held. -/
theorem Region.Holds.discards_head_size (h : r.Holds m read unread) {k z : Nat} (hz : (read ++ unread)[k]? = some z) :
    headerSize (r.headerAt m (Region.discards m k r).head) = z := by
  have inside : k < (read ++ unread).length := (List.getElem?_eq_some_iff.1 hz).1
  have list : read.drop k ++ unread.drop (k - read.length) = z :: (read ++ unread).drop (k + 1) := by
    rw [drop_append_drop, ← (List.getElem?_eq_some_iff.1 hz).2, List.drop_eq_getElem_cons inside]
  have size := (h.discards inside.le).head_size list
  have placed : (Region.discards m k r).headerAt m = r.headerAt m := by rw [Region.discards_keeps]; rfl
  rwa [placed] at size

theorem sum_take_succ {l : List Nat} {k z : Nat} (hz : l[k]? = some z) : (l.take (k + 1)).sum = (l.take k).sum + z := by
  simp [List.take_add_one, hz]

/-- The head after `k` discards stands behind the `k` oldest records. -/
theorem Region.Holds.discards_head_from (h : r.Holds m read unread) {k : Nat} (hk : k ≤ (read ++ unread).length) :
    (Region.discards m k r).head =
      if k = 0 then r.head else r.advance r.head ((read ++ unread).take k).sum := by
  induction k with
  | zero => rfl
  | succ k ih =>
    have hz : (read ++ unread)[k]? = some (read ++ unread)[k] := List.getElem?_eq_getElem (by omega)
    have placed : (Region.discards m k r).headerAt m = r.headerAt m := by rw [Region.discards_keeps]; rfl
    have step : (Region.discards m (k + 1) r).head =
        r.advance (Region.discards m k r).head (headerSize (r.headerAt m (Region.discards m k r).head)) := by
      rw [Region.discards_succ]
      simp only [Region.discard, placed, Region.advance, Region.discards_words]
    rw [step, h.discards_head_size hz, ih (by omega), if_neg (Nat.succ_ne_zero k), sum_take_succ hz]
    split_ifs with first
    · simp [first]
    · rw [Region.advance_advance]

/-- A head inside the ring stands where it would after no words. -/
theorem Region.head_from {r : Region} (head : r.head < r.words) (l : List Nat) (k : Nat) :
    (if k = 0 then r.head else r.advance r.head (l.take k).sum) = r.advance r.head (l.take k).sum := by
  split_ifs with first
  · simp [first, Region.advance_zero head]
  · rfl

theorem Region.Holds.discards_head (h : r.Holds m read unread) (head : r.head < r.words) {k : Nat}
    (hk : k ≤ (read ++ unread).length) :
    (Region.discards m k r).head = r.advance r.head ((read ++ unread).take k).sum := by
  rw [h.discards_head_from hk, Region.head_from head]

theorem sum_take_add_sum_drop (l : List Nat) (k : Nat) : (l.take k).sum + (l.drop k).sum = l.sum := by
  rw [← List.sum_append, List.take_append_drop]

/-- The cursor after `k` discards stands behind the read records, or behind the unread ones that left too. -/
theorem Region.Holds.discards_cursor (h : r.Holds m read unread) (head : r.head < r.words) {k : Nat}
    (hk : k ≤ (read ++ unread).length) :
    (Region.discards m k r).cursor = r.advance r.head (read ++ unread.take (k - read.length)).sum := by
  have size : (Region.discards m k r).size = r.size := by rw [Region.discards_keeps]
  have sums := sum_take_add_sum_drop read k
  rw [(h.discards hk).cursor, h.discards_head head hk, Region.advance_congr size, Region.advance_advance]
  congr 1
  rw [List.take_append, List.sum_append, List.sum_append]
  omega

/-- The region still has a TRIG record exactly when it had one and none of the records that left was one (R108). -/
theorem Region.Holds.discards_hasTrig_from (h : r.Holds m read unread) {k : Nat}
    (hk : k ≤ (read ++ unread).length) :
    (Region.discards m k r).hasTrig = true ↔ r.hasTrig = true ∧ ∀ j, j < k →
      headerKind (r.headerAt m (if j = 0 then r.head else r.advance r.head ((read ++ unread).take j).sum)) ≠ 7 := by
  induction k with
  | zero => simp
  | succ k ih =>
    have placed : (Region.discards m k r).headerAt m = r.headerAt m := by rw [Region.discards_keeps]; rfl
    have step : (Region.discards m (k + 1) r).hasTrig =
        ((Region.discards m k r).hasTrig &&
          headerKind (r.headerAt m (Region.discards m k r).head) != RecKind.trig.code) := by
      rw [Region.discards_succ, ← placed]
      rfl
    rw [step, h.discards_head_from (by omega), Bool.and_eq_true, ih (by omega), bne_iff_ne,
      Nat.forall_lt_succ_right, and_assoc]
    rfl

theorem Region.Holds.discards_hasTrig (h : r.Holds m read unread) (head : r.head < r.words) {k : Nat}
    (hk : k ≤ (read ++ unread).length) :
    (Region.discards m k r).hasTrig = true ↔ r.hasTrig = true ∧ ∀ j, j < k →
      headerKind (r.headerAt m (r.advance r.head ((read ++ unread).take j).sum)) ≠ 7 := by
  simp only [h.discards_hasTrig_from hk, Region.head_from head]

/-- Each record that leaves is counted as overwritten (R125). -/
theorem Region.discards_overwritten {k : Nat} (max : r.overwritten + k ≤ 0xFFFFFFFF) :
    (Region.discards m k r).overwritten = r.overwritten + k := by
  induction k with
  | zero => rfl
  | succ k ih =>
    have before := ih (by omega)
    have below : r.overwritten + k < Config.count32Max := by rw [Config.count32Max]; omega
    rw [Region.discards_succ]
    simp only [Region.discard, before, satInc, if_pos below]
    omega

/-- A record that leaves is counted as lost unread when the cursor stands at it (R125). -/
theorem Region.Holds.discards_unreadLost (h : r.Holds m read unread) {k : Nat} (hk : k ≤ (read ++ unread).length)
    (max : r.unreadLost + (k - read.length) ≤ 0xFFFFFFFF) :
    (Region.discards m k r).unreadLost = r.unreadLost + (k - read.length) := by
  induction k with
  | zero => simp
  | succ k ih =>
    have before := ih (by omega) (by omega)
    rw [Region.discards_succ]
    by_cases past : read.length ≤ k
    · have atHead : (Region.discards m k r).cursorAtHead = true :=
        (h.discards (by omega)).cursorAtHead_iff.2 (List.drop_eq_nil_of_le past)
      have below : r.unreadLost + (k - read.length) < Config.count32Max := by rw [Config.count32Max]; omega
      simp only [Region.discard, atHead, satIncIf, if_true, before, satInc, if_pos below]
      omega
    · have behind : (Region.discards m k r).cursorAtHead = false := by
        rw [← Bool.not_eq_true, (h.discards (by omega)).cursorAtHead_iff, List.drop_eq_nil_iff]
        omega
      simp only [Region.discard, behind, satIncIf, Bool.false_eq_true, if_false, before]
      omega

/-- The free words after `k` discards: those that were free and the words of the records that left. -/
theorem Region.Holds.discards_free (h : r.Holds m read unread) (fits : r.used ≤ r.words) {k : Nat}
    (hk : k ≤ (read ++ unread).length) :
    (Region.discards m k r).free = (r.words - r.used) + ((read ++ unread).take k).sum := by
  have left := (h.discards hk).used
  rw [drop_append_drop] at left
  have sums := sum_take_add_sum_drop (read ++ unread) k
  rw [Region.free, Region.discards_words, left, h.used]
  rw [h.used] at fits
  omega

/-- A region whose records all leave has room for whatever fits into it, so making room suffices (R108). -/
theorem Region.Holds.makeRoom (h : r.Holds m read unread) (fits : r.used ≤ r.words) {need : Nat}
    (small : need ≤ r.words) :
    ∃ k, k ≤ (read ++ unread).length ∧ Region.makeRoom m r.count r need = Region.discards m k r ∧
      need ≤ (Region.discards m k r).free ∧ (∀ j, j < k → (Region.discards m j r).free < need) := by
  obtain ⟨k, hk, made, short, done⟩ := Region.makeRoom_eq_discards m r.count r need
  rw [h.count] at hk done
  refine ⟨k, hk, made, done.elim (fun all => ?_) id, short⟩
  rw [h.discards_free fits hk, all, List.take_length, ← h.used]
  omega

end

/-- Settles O43: the records that leave are the fewest whose words make the room. -/
theorem rollMakesRoom : Obligations.RollMakesRoom := by
  intro m r need read unread chain count used unreadWords cursor head fits small
  have h : r.Holds m read unread := ⟨chain, count, used, unreadWords, cursor⟩
  obtain ⟨k, hk, made, room, short⟩ := h.makeRoom fits small
  have after := h.discards hk
  rw [made]
  refine ⟨k, hk, room, fun pos => ?_, ?_, ?_, h.discards_head head hk, after.unread, h.discards_cursor head hk, ?_,
    h.discards_hasTrig head hk, Region.discards_overwritten, h.discards_unreadLost hk⟩
  · rw [← h.discards_free fits (by omega)]
    exact short (k - 1) (by omega)
  · rw [after.used, drop_append_drop]
  · rw [after.count, drop_append_drop, List.length_drop, h.count]
  · rw [Region.discards_keeps]

/-! ### Records freed by RELEASE (R120) -/

/-- The region with these counts of records lost to overwriting. -/
def Region.withLosses (r : Region) (overwritten unreadLost : Nat) : Region :=
  { r with overwritten := overwritten, unreadLost := unreadLost }

/-- The region RELEASE leaves, but for its threshold marker, once records of these sizes are freed: the head and the
counts move, the cursor does not. -/
def Region.freed (r : Region) (sizes : List Nat) (hasTrig : Bool) : Region :=
  { r with
    head := if sizes.length = 0 then r.head else r.advance r.head sizes.sum
    used := r.used - sizes.sum, count := r.count - sizes.length, hasTrig := hasTrig }

theorem Region.withLosses_self (r : Region) : r.withLosses r.overwritten r.unreadLost = r := rfl

/-- What is discarded does not depend on the counts. -/
theorem Region.discards_withLosses (m : List Host.Cell) (k : Nat) (r : Region) (a b c d : Nat) :
    (Region.discards m k (r.withLosses a b)).withLosses c d = (Region.discards m k r).withLosses c d := by
  induction k generalizing r a b with
  | zero => rfl
  | succ k ih =>
    rw [Region.discards_succ_front, Region.discards_succ_front, ← ih (r.discard m)]
    rfl

section
variable {m : List Host.Cell} {r : Region} {read unread : List Nat}

/-- Freeing a read record is discarding it without a count. -/
theorem Region.Holds.freeHead_eq_discard {z : Nat} (h : r.Holds m (z :: read) unread) :
    r.freeHead m = (r.discard m).withLosses r.overwritten r.unreadLost := by
  have behind : r.cursorAtHead = false := by
    rw [← Bool.not_eq_true, h.cursorAtHead_iff]; simp
  simp [Region.freeHead, Region.discard, Region.withLosses, behind]

/-- With at most `n` records asked for, the read ones are freed, oldest first. -/
theorem Region.Holds.freeRead (h : r.Holds m read unread) (n : Nat) :
    Region.freeRead m n r =
      ((Region.discards m (min n read.length) r).withLosses r.overwritten r.unreadLost, min n read.length) := by
  induction n generalizing r read with
  | zero => simp [Region.freeRead, Region.withLosses_self]
  | succ n ih =>
    cases read with
    | nil => simp [Region.freeRead, h.cursorAtHead_iff.2 rfl, Region.withLosses_self]
    | cons z read =>
      have more : ¬(r.count = 0 ∨ r.cursorAtHead = true) := by
        rw [h.cursorAtHead_iff, h.count]; simp
      rw [Region.freeRead, if_neg more, ih h.freeHead, h.freeHead_eq_discard, Region.discards_withLosses,
        List.length_cons, Nat.succ_min_succ]
      rfl

theorem Region.Holds.freeRead_region (h : r.Holds m read unread) (n : Nat) {k : Nat} (hk : k = min n read.length) :
    Region.freeRead m n r = (r.freed (read.take k) (Region.discards m k r).hasTrig, k) := by
  have inside : k ≤ (read ++ unread).length := by rw [List.length_append]; omega
  have after := h.discards inside
  have left := sum_take_add_sum_drop (read ++ unread) k
  have taken : (read ++ unread).take k = read.take k := List.take_append_of_le_length (by omega)
  have head := h.discards_head_from inside
  have used : (Region.discards m k r).used = r.used - (read.take k).sum := by
    rw [after.used, drop_append_drop, h.used, ← taken]
    omega
  have count : (Region.discards m k r).count = r.count - k := by
    rw [after.count, drop_append_drop, List.length_drop, h.count]
  have unreadWords : (Region.discards m k r).unread = r.unread := by
    rw [after.unread, show k - read.length = 0 by omega, List.drop_zero, h.unread]
  have cursor : (Region.discards m k r).cursor = r.cursor := by
    have size : (Region.discards m k r).size = r.size := by rw [Region.discards_keeps]
    have sums := sum_take_add_sum_drop read k
    rw [after.cursor, head, h.cursor, Region.advance_congr size]
    split_ifs with first
    · simp [first]
    · rw [Region.advance_advance, taken, sums]
  have length : (read.take k).length = k := by rw [List.length_take]; omega
  rw [taken] at head
  rw [h.freeRead n, ← hk, Region.discards_keeps, head, used, count, unreadWords, cursor, Region.freed, length]
  rfl

/-- The region with its cursor at a given position. -/
def Region.setCursor (r : Region) (c : Nat) : Region := { r with cursor := c }

theorem Region.freeRead_more {m : List Host.Cell} {n : Nat} {r : Region}
    (h : ¬(r.count = 0 ∨ r.cursorAtHead = true)) :
    Region.freeRead m (n + 1) r = ((Region.freeRead m n (r.freeHead m)).1, (Region.freeRead m n (r.freeHead m)).2 + 1) :=
  if_neg h

theorem Region.freeRead_done {m : List Host.Cell} {n : Nat} {r : Region} (h : r.count = 0 ∨ r.cursorAtHead = true) :
    Region.freeRead m (n + 1) r = (r, 0) := if_pos h

/-- Which records are freed does not depend on where the cursor stands. -/
theorem Region.freeRead_setCursor (m : List Host.Cell) (n : Nat) (r : Region) (c : Nat) :
    Region.freeRead m n (r.setCursor c) = ((Region.freeRead m n r).1.setCursor c, (Region.freeRead m n r).2) := by
  induction n generalizing r with
  | zero => rfl
  | succ n ih =>
    by_cases done : r.count = 0 ∨ r.cursorAtHead = true
    · rw [Region.freeRead_done done, Region.freeRead_done (r := r.setCursor c) done]
    · have next : (r.setCursor c).freeHead m = (r.freeHead m).setCursor c := rfl
      rw [Region.freeRead_more done, Region.freeRead_more (r := r.setCursor c) done, next, ih]

end

/-! ### READ (R119) -/

theorem Region.readWords_add (r : Region) (m : List Host.Cell) (a b p : Nat) (hp : p < r.words) :
    r.readWords m (a + b) p = r.readWords m a p ++ r.readWords m b (r.advance p a) := by
  induction a generalizing p with
  | zero => simp [Region.readWords, Region.advance_zero hp]
  | succ a ih =>
    have step := ih (r.advance p 1) (Region.advance_lt_of_lt hp p 1)
    rw [Region.advance_advance, Nat.add_comm 1 a] at step
    rw [Nat.succ_add, Region.readWords, Region.readWords, step, List.cons_append]

/-- Words read depend on a region's placement alone. -/
theorem Region.readWords_congr {r t : Region} (base : t.base = r.base) (size : t.size = r.size) (m : List Host.Cell)
    (n p : Nat) : t.readWords m n p = r.readWords m n p := by
  induction n generalizing p with
  | zero => rfl
  | succ n ih => simp only [Region.readWords, ih, Region.wordAt, base, Region.advance_congr size]

/-- The region with its cursor `n` words on, and `left` words still unread. -/
def Region.moveCursor (r : Region) (n left : Nat) : Region :=
  { r with cursor := r.advance r.cursor n, unread := left }

theorem Region.moveCursor_moveCursor (r : Region) (a b x y : Nat) :
    (r.moveCursor a x).moveCursor b y = r.moveCursor (a + b) y := by
  simp only [Region.moveCursor, Region.advance_congr (r := r), Region.advance_advance]

theorem Region.moveCursor_zero {r : Region} (cursor : r.cursor < r.words) : r.moveCursor 0 r.unread = r := by
  rw [Region.moveCursor, Region.advance_zero cursor]

/-- Nothing is read at the tail, nor when the next record is too long. -/
theorem Region.readFrom_none (m : List Host.Cell) (n : Nat) {r : Region} {room : Nat} (cursor : r.cursor < r.words)
    (h : r.unread = 0 ∨ room < headerSize (r.headerAt m r.cursor)) :
    Region.readFrom m n r room =
      { words := r.readWords m 0 r.cursor, records := 0, region := r.moveCursor 0 r.unread } := by
  rw [Region.moveCursor_zero cursor, Region.readWords]
  cases n with
  | zero => rfl
  | succ n => rw [Region.readFrom]; exact if_pos h

theorem Region.readFrom_more {m : List Host.Cell} {n : Nat} {r : Region} {room z : Nat} (left : r.unread ≠ 0)
    (size : headerSize (r.headerAt m r.cursor) = z) (fits : z ≤ room) :
    Region.readFrom m (n + 1) r room =
      { Region.readFrom m n (r.moveCursor z (r.unread - z)) (room - z) with
        words := r.readWords m z r.cursor ++ (Region.readFrom m n (r.moveCursor z (r.unread - z)) (room - z)).words
        records := (Region.readFrom m n (r.moveCursor z (r.unread - z)) (room - z)).records + 1 } := by
  rw [Region.readFrom, size]
  exact if_neg (by omega)

/-- Whole records are read from the cursor, one more as long as it fits into the room left. -/
theorem Region.readFrom_eq {m : List Host.Cell} {unread : List Nat} (n : Nat) (hn : unread.length ≤ n) {r : Region}
    (cursor : r.cursor < r.words) (chain : r.chain m r.cursor unread) (words : r.unread = unread.sum) (room : Nat) :
    ∃ k, k ≤ unread.length ∧ (unread.take k).sum ≤ room ∧ (k < unread.length → room < (unread.take (k + 1)).sum) ∧
      Region.readFrom m n r room =
        { words := r.readWords m (unread.take k).sum r.cursor, records := k
          region := r.moveCursor (unread.take k).sum (unread.drop k).sum } := by
  induction n generalizing r unread room with
  | zero =>
    obtain rfl : unread = [] := List.eq_nil_of_length_eq_zero (by omega)
    refine ⟨0, by simp, by simp, by simp, ?_⟩
    rw [Region.readFrom_none m 0 cursor (.inl words), words]
    rfl
  | succ n ih =>
    cases unread with
    | nil =>
      refine ⟨0, by simp, by simp, by simp, ?_⟩
      rw [Region.readFrom_none m (n + 1) cursor (.inl words), words]
      rfl
    | cons z rest =>
      obtain ⟨size, two, chain⟩ := chain
      by_cases fits : room < z
      · refine ⟨0, by simp, by simp, by simpa using fits, ?_⟩
        rw [Region.readFrom_none m (n + 1) cursor (.inr (by rw [size]; exact fits)), words]
        rfl
      · have left : r.unread ≠ 0 := by simp only [words, List.sum_cons]; omega
        obtain ⟨k, hk, sum, more, out⟩ := ih (by simpa using hn) (r := r.moveCursor z (r.unread - z))
          (Region.advance_lt_of_lt cursor _ _)
          ((Region.chain_congr (r := r) (t := r.moveCursor z (r.unread - z)) rfl rfl _ _).2 chain)
          (by simp [Region.moveCursor, words]) (room - z)
        refine ⟨k + 1, by simpa using hk, by simp only [List.take_succ_cons, List.sum_cons]; omega, fun h => ?_, ?_⟩
        · have := more (by simpa using h)
          simp only [List.take_succ_cons, List.sum_cons] at this ⊢
          omega
        · rw [Region.readFrom_more left size (by omega), out, Region.moveCursor_moveCursor,
            Region.readWords_congr (r := r) (t := r.moveCursor z (r.unread - z)) rfl rfl]
          simp only [List.take_succ_cons, List.sum_cons, List.drop_succ_cons, Region.readWords_add _ _ _ _ _ cursor]
          rfl

end Sys2Proof.Machine

/-! PROOFS. The requests READ (R119) and RELEASE (R120). -/

namespace Sys2Proof.Machine

/-- A region's byte hands the request to that region. -/
@[simp] theorem withRegion_quadByte (s : State) (id : RegionId) (act : RegionId → Answer) :
    withRegion s (quadByte id) act = act id := by
  simp [withRegion]

/-! ### READ (R119) -/

theorem regionRead_of_range {s : State} {id : RegionId} {max : Nat} (h : max < 288 ∨ 1020 < max ∨ max % 4 ≠ 0) :
    regionRead s id max = .refuse s .range := if_pos h

theorem regionRead_of_disabled {s : State} {id : RegionId} {max : Nat} (h : ¬(max < 288 ∨ 1020 < max ∨ max % 4 ≠ 0))
    (disabled : (s.region id).state = .disabled) : regionRead s id max = .refuse s .state := by
  rw [regionRead, if_neg h, if_pos disabled]

theorem regionRead_of_enabled {s : State} {id : RegionId} {max : Nat} {out : ReadOut}
    (h : ¬(max < 288 ∨ 1020 < max ∨ max % 4 ≠ 0)) (enabled : (s.region id).state ≠ .disabled)
    (hout : Region.readFrom s.store.mem (s.region id).count (s.region id) (max / 4) = out) :
    regionRead s id max =
      .ok (s.setRegion id out.region)
        ([quadByte id, BitVec.ofNat 8 out.records, if out.region.unread = 0 then 0 else 1] ++
          out.words.flatMap wordBytes) := by
  subst hout
  rw [regionRead, if_neg h, if_neg enabled]
  rfl

theorem regionRead_link (s : State) (id : RegionId) (max : Nat) : (regionRead s id max).state.link = s.link := by
  unfold regionRead
  dsimp only
  split_ifs <;> rfl

theorem exec_read_taken {tag m0 m1 : Byte} {id : RegionId} {s s1 : State}
    (hTaken : TakenAs s ⟨tag, 0x55, [quadByte id, m0, m1]⟩ s1) {a : Answer}
    (ha : regionRead s1 id (natOfBytes [m0, m1]) = a) :
    exec (.read tag [quadByte id, m0, m1]) s =
      .next (answered s1 a.state ⟨tag, 0x55, [quadByte id, m0, m1]⟩ a.status a.content) := by
  have acts : withRegion s1 (quadByte id) (fun j => regionRead s1 j (natOfBytes [m0, m1])) = a := by
    rw [withRegion_quadByte, ha]
  have keeps : a.state.link.resetTaken = false := by
    rw [← ha, regionRead_link, hTaken.resetTaken]
  exact congrArg Host.Outcome.next (serve_answered hTaken rfl acts keeps)

/-- Some record is left unread exactly when the unread words are not used up. -/
theorem sum_drop_eq_zero_iff {l : List Nat} (two : ∀ z ∈ l, 2 ≤ z) (k : Nat) : (l.drop k).sum = 0 ↔ ¬k < l.length := by
  rw [Nat.not_lt, ← List.drop_eq_nil_iff]
  exact ⟨fun h => eq_nil_of_sum_eq_zero (fun z hz => two z (List.mem_of_mem_drop hz)) h, fun h => by rw [h]; rfl⟩

/-- Settles O40: the reading follows the chain of headers from the cursor, a record at a time. -/
theorem readDeliversWholeRecords : Obligations.ReadDeliversWholeRecords := by
  rintro tag m0 m1 id s s1 r hTaken rfl
  refine ⟨fun range => ?_, fun room hroom low high => ⟨fun disabled => ?_, ?_⟩⟩
  · rw [exec_read_taken hTaken (regionRead_of_range range)]; rfl
  · rw [exec_read_taken hTaken (regionRead_of_disabled (by omega) disabled)]; rfl
  · intro enabled sound read unread chain count used unreadWords cursor
    have h : (s1.region id).Holds s1.store.mem read unread := ⟨chain, count, used, unreadWords, cursor⟩
    obtain ⟨-, placed, -⟩ := sound
    obtain ⟨-, -, head, atCursor, -⟩ := placed enabled
    have fromCursor : (s1.region id).chain s1.store.mem (s1.region id).cursor unread := by
      rw [cursor]; exact Region.chain_append _ _ head chain
    have bound : unread.length ≤ (s1.region id).count := by
      rw [count, List.length_append]; exact Nat.le_add_left _ _
    have sizes : ∀ z ∈ unread, 2 ≤ z := fun z hz => h.sizes z (List.mem_append_right _ hz)
    obtain ⟨k, hk, fits, more, out⟩ := Region.readFrom_eq _ bound atCursor fromCursor unreadWords room
    refine ⟨k, hk, fits, more, ?_⟩
    rw [show room = natOfBytes [m0, m1] / 4 by omega] at out
    rw [exec_read_taken hTaken (regionRead_of_enabled (by omega) enabled out)]
    have moved : (s1.region id).moveCursor (unread.take k).sum (unread.drop k).sum =
        { s1.region id with
          cursor := (s1.region id).advance (s1.region id).head (read ++ unread.take k).sum
          unread := (unread.drop k).sum } := by
      rw [Region.moveCursor, cursor, Region.advance_advance, List.sum_append]
    have flag : (if ((s1.region id).moveCursor (unread.take k).sum (unread.drop k).sum).unread = 0 then 0 else 1) =
        (if k < unread.length then 1 else 0 : Byte) := by
      have left := sum_drop_eq_zero_iff sizes k
      simp only [Region.moveCursor, left, ite_not]
    simp only [moved, Answer.ok] at flag ⊢
    rw [flag]

/-! ### RELEASE (R120) -/

theorem regionRelease_of_disabled {s : State} {id : RegionId} (disabled : (s.region id).state = .disabled) (count : Nat) :
    regionRelease s id count = .refuse s .state := if_pos disabled

theorem regionRelease_of_enabled {s : State} {id : RegionId} (enabled : (s.region id).state ≠ .disabled) (count : Nat)
    {freed : Region × Nat}
    (hfreed : Region.freeRead s.store.mem (if count = 0 then (s.region id).count else count) (s.region id) = freed) :
    regionRelease s id count =
      .ok ((s.setRegion id (freed.1.judgeThreshold id).1).setLink (s.link.raiseAll (freed.1.judgeThreshold id).2))
        (bytesOfNat 2 freed.2) := by
  subst hfreed
  exact if_neg enabled

theorem regionRelease_resetTaken (s : State) (id : RegionId) (count : Nat) :
    (regionRelease s id count).state.link.resetTaken = s.link.resetTaken := by
  unfold regionRelease
  dsimp only
  split_ifs
  · rfl
  all_goals exact Link.raiseAll_resetTaken _ _

theorem exec_release_taken {tag c0 c1 : Byte} {id : RegionId} {s s1 : State}
    (hTaken : TakenAs s ⟨tag, 0x56, [quadByte id, c0, c1]⟩ s1) {a : Answer}
    (ha : regionRelease s1 id (natOfBytes [c0, c1]) = a) :
    exec (.release tag [quadByte id, c0, c1]) s =
      .next (answered s1 a.state ⟨tag, 0x56, [quadByte id, c0, c1]⟩ a.status a.content) := by
  have acts : withRegion s1 (quadByte id) (fun j => regionRelease s1 j (natOfBytes [c0, c1])) = a := by
    rw [withRegion_quadByte, ha]
  have keeps : a.state.link.resetTaken = false := by
    rw [← ha, regionRelease_resetTaken, hTaken.resetTaken]
  exact congrArg Host.Outcome.next (serve_answered hTaken rfl acts keeps)

/-- The marker says what the used words say once the threshold has been judged (R118). -/
theorem Region.judgeThreshold_crossed (id : RegionId) (r : Region) :
    (r.judgeThreshold id).1.crossed = true ↔ r.threshold ≠ 0 ∧ r.threshold ≤ r.used := by
  unfold Region.judgeThreshold
  split_ifs with passed crossed
  · simp [crossed, passed]
  · simp [passed]
  · simp [passed]

/-- THRESHOLD is raised at a crossing alone (R118). -/
theorem Region.judgeThreshold_quiet {id : RegionId} {r : Region}
    (h : r.crossed = true ∨ (r.judgeThreshold id).1.crossed = false) : (r.judgeThreshold id).2 = [] := by
  unfold Region.judgeThreshold at h ⊢
  split_ifs at h ⊢ <;> simp_all

/-- RELEASE by the chain of headers alone, wherever the cursor is written to stand (R120). -/
theorem Region.freeRead_of_chain {m : List Host.Cell} {r : Region} {read unread : List Nat}
    (chain : r.chain m r.head (read ++ unread)) (count : r.count = (read ++ unread).length)
    (used : r.used = (read ++ unread).sum) (unreadWords : r.unread = unread.sum) (n : Nat) {k : Nat}
    (hk : k = min n read.length) :
    ∃ trig : Bool, Region.freeRead m n r = (r.freed (read.take k) trig, k) ∧
      (trig = true ↔ r.hasTrig = true ∧ ∀ j, j < k →
        headerKind (r.headerAt m (if j = 0 then r.head else r.advance r.head (read.take j).sum)) ≠ 7) := by
  have holds : ∀ c, c = r.advance r.head read.sum → (r.setCursor c).Holds m read unread := fun c hc =>
    ⟨(Region.chain_congr (r := r) (t := r.setCursor c) rfl rfl _ _).2 chain, count, used, unreadWords, hc⟩
  have h := holds _ rfl
  have inside : k ≤ (read ++ unread).length := by rw [List.length_append]; omega
  have own : r = (r.setCursor (r.advance r.head read.sum)).setCursor r.cursor := rfl
  refine ⟨_, ?_, (h.discards_hasTrig_from inside).trans
    (and_congr_right fun _ => forall₂_congr fun j hj => ?_)⟩
  · conv_lhs => rw [own]
    rw [Region.freeRead_setCursor, h.freeRead_region n hk]
    rfl
  · rw [List.take_append_of_le_length (by omega)]
    rfl

/-- Settles O41: what RELEASE frees are the oldest of the read records, so many as asked for and held. -/
theorem releaseFreesReadRecords : Obligations.ReleaseFreesReadRecords := by
  rintro tag c0 c1 id s s1 r hTaken rfl
  refine ⟨fun disabled => ?_, ?_⟩
  · rw [exec_release_taken hTaken (regionRelease_of_disabled disabled _)]; rfl
  · intro enabled read unread chain count used unreadWords
    obtain ⟨k, hk⟩ : ∃ k, k = if natOfBytes [c0, c1] = 0 then read.length else min (natOfBytes [c0, c1]) read.length :=
      ⟨_, rfl⟩
    have asked : k = min (if natOfBytes [c0, c1] = 0 then (s1.region id).count else natOfBytes [c0, c1]) read.length := by
      rw [hk]
      split_ifs
      · rw [count, List.length_append]; omega
      · rfl
    obtain ⟨trig, freed, trig_iff⟩ := Region.freeRead_of_chain chain count used unreadWords _ asked
    have length : (read.take k).length = k := by rw [List.length_take]; omega
    refine ⟨k, (((s1.region id).freed (read.take k) trig).judgeThreshold id).1,
      (((s1.region id).freed (read.take k) trig).judgeThreshold id).2, hk, ?_, ?_, ?_, fun h => ?_, ?_⟩
    · rw [Region.judgeThreshold_keeps]
      simp only [Region.freed, length]
    · rw [Region.judgeThreshold_keeps]; exact trig_iff
    · rw [Region.judgeThreshold_crossed, Region.judgeThreshold_keeps]; rfl
    · exact Region.judgeThreshold_quiet h
    · rw [exec_release_taken hTaken (regionRelease_of_enabled enabled _ freed)]
      rfl

end Sys2Proof.Machine

/-! PROOFS. The words of the records (R127 to R129): every field reads back from its bits. -/

namespace Sys2Proof.Machine

/-! ### Fields of a word -/

theorem getField_ofNat {n : Nat} (h : n < 2 ^ 32) (width offset : Nat) :
    getField (BitVec.ofNat 32 n) width offset = n / 2 ^ offset % 2 ^ width := by
  rw [getField, BitVec.toNat_ofNat, Nat.mod_eq_of_lt h]

theorem getLsbD_ofNat {n : Nat} (h : n < 2 ^ 32) (i : Nat) {b : Bool} (bit : n / 2 ^ i % 2 = b.toNat) :
    (BitVec.ofNat 32 n).getLsbD i = b := by
  rw [BitVec.getLsbD, BitVec.toNat_ofNat, Nat.mod_eq_of_lt h, Nat.testBit_eq_decide_div_mod_eq, bit]
  cases b <;> rfl

theorem wordField_of_lt {value width : Nat} (h : value < 2 ^ width) (offset : Nat) :
    wordField value width offset = value * 2 ^ offset := by
  rw [wordField, Nat.mod_eq_of_lt h]

theorem wordBit_eq (b : Bool) (offset : Nat) : wordBit b offset = b.toNat * 2 ^ offset := by
  cases b <;> simp [wordBit]

theorem RecKind.code_lt (k : RecKind) : k.code < 16 := by cases k <;> decide

/-! ### The header (R127) -/

/-- The header as a number whose fields do not reach into one another. -/
theorem headerWord_eq (kind : RecKind) {source cause size flags entries : Nat} (hs : source < 4) (hc : cause < 4)
    (hz : size < 256) (hf : flags < 4096) (he : entries < 16) :
    headerWord kind source cause size flags entries =
      BitVec.ofNat 32 (kind.code + source * 16 + cause * 64 + size * 256 + flags * 65536 + entries * 268435456) := by
  rw [headerWord, wordField_of_lt kind.code_lt, wordField_of_lt hs, wordField_of_lt hc, wordField_of_lt hz,
    wordField_of_lt hf, wordField_of_lt he]
  norm_num

theorem headerWord_fields (kind : RecKind) {source cause size flags entries : Nat} (hs : source < 4) (hc : cause < 4)
    (hz : size < 256) (hf : flags < 4096) (he : entries < 16) {h : Word}
    (hh : h = headerWord kind source cause size flags entries) :
    getField h 4 0 = kind.code ∧ getField h 2 4 = source ∧ getField h 2 6 = cause ∧ getField h 8 8 = size ∧
      getField h 12 16 = flags ∧ getField h 4 28 = entries := by
  have hk := kind.code_lt
  rw [hh, headerWord_eq kind hs hc hz hf he]
  refine ⟨?_, ?_, ?_, ?_, ?_, ?_⟩ <;> (rw [getField_ofNat (by omega)]; norm_num; omega)

theorem headerSize_headerWord (kind : RecKind) {source cause size flags entries : Nat} (hs : source < 4)
    (hc : cause < 4) (hz : size < 256) (hf : flags < 4096) (he : entries < 16) :
    headerSize (headerWord kind source cause size flags entries) = size :=
  (headerWord_fields kind hs hc hz hf he rfl).2.2.2.1

/-! ### Words with an epoch tag (R128, R129) -/

/-- A low field of 24 bits and the tag above it. -/
theorem taggedWord_eq {low : Nat} (h : low < 2 ^ 24) (tag : Byte) :
    taggedWord low tag = BitVec.ofNat 32 (low + tag.toNat * 16777216) := by
  rw [taggedWord, wordField_of_lt h, wordField_of_lt tag.isLt]
  norm_num

theorem getField_taggedWord_tag {low : Nat} (h : low < 2 ^ 24) (tag : Byte) :
    getField (taggedWord low tag) 8 24 = tag.toNat := by
  have ht := tag.isLt
  rw [taggedWord_eq h, getField_ofNat (by omega)]
  omega

/-- A field inside the low one reads as it does without the tag. -/
theorem getField_taggedWord_low {low : Nat} (h : low < 2 ^ 24) (tag : Byte) {width offset : Nat}
    (inside : offset + width ≤ 24) : getField (taggedWord low tag) width offset = low / 2 ^ offset % 2 ^ width := by
  have ht := tag.isLt
  have high : tag.toNat * 16777216 = 2 ^ offset * (2 ^ width * (tag.toNat * 2 ^ (24 - (offset + width)))) := by
    have : (16777216 : Nat) = 2 ^ offset * 2 ^ width * 2 ^ (24 - (offset + width)) := by
      rw [← pow_add, ← pow_add, show offset + width + (24 - (offset + width)) = 24 by omega]
      norm_num
    rw [this]; ring
  rw [taggedWord_eq h, getField_ofNat (by omega), high, Nat.add_mul_div_left _ _ (by positivity), Nat.add_mul_mod_self_left]

theorem getField_taggedWord_whole {low : Nat} (h : low < 2 ^ 24) (tag : Byte) :
    getField (taggedWord low tag) 24 0 = low := by
  rw [getField_taggedWord_low h tag (by norm_num)]
  omega

/-! ### The records of fixed length (R129) -/

theorem brkRecord_words (i : LineId) {b : BreakInfo} (hd : b.duration ≤ 0xFFFFFF) : ∃ w,
    (brkRecord i b).words =
      [headerWord .brk i.val 0 3 ((if b.cut then 1 else 0) + (if b.echo then 32 else 0)) 0, b.startTime, w] ∧
    getField w 24 0 = b.duration ∧ getField w 8 24 = b.startTag.toNat := by
  have h : b.duration < 2 ^ 24 := by omega
  exact ⟨_, rfl, getField_taggedWord_whole h _, getField_taggedWord_tag h _⟩

/-- The cause and pin fields of an EPOCH record's second word. -/
theorem epochRecord_words (epoch : BitVec 16) (pin : Option PinId) : ∃ w,
    (epochRecord epoch pin).words = [headerWord .epoch 0 0 2 0 0, w] ∧ getField w 16 0 = epoch.toNat ∧
    getField w 2 16 = (match pin with | none => 0 | some _ => 1) ∧
    getField w 2 18 = (match pin with | none => 0 | some p => p.val) ∧ getField w 12 20 = 0 := by
  have he := epoch.isLt
  refine ⟨_, rfl, ?_⟩
  cases pin with
  | none =>
    have word : wordField epoch.toNat 16 0 + wordBit false 16 + wordField 0 2 18 = epoch.toNat := by
      rw [wordField_of_lt he, wordBit_eq, wordField]; norm_num
    simp only [Option.isSome_none, word]
    refine ⟨?_, ?_, ?_, ?_⟩ <;> (rw [getField_ofNat (by omega)]; omega)
  | some p =>
    have hp := p.isLt
    simp only [Option.isSome_some, wordBit_eq, wordField_of_lt he,
      wordField_of_lt (show p.val < 2 ^ 2 by omega), Bool.toNat_true]
    refine ⟨?_, ?_, ?_, ?_⟩ <;> (rw [getField_ofNat (by norm_num; omega)]; norm_num; omega)

theorem syncRecord_words (p : PinId) (e : Edge) (time : Word) (tag : Byte) : ∃ w,
    (syncRecord p e time tag).words = [headerWord .sync p.val 0 3 0 0, time, w] ∧
    getField w 8 0 = (match e with | .rising => 0 | .falling => 1) ∧ getField w 16 8 = 0 ∧
    getField w 8 24 = tag.toNat := by
  have low : (if e = .falling then 1 else 0) < 2 ^ 24 := by split_ifs <;> norm_num
  refine ⟨_, rfl, ?_, ?_, getField_taggedWord_tag low _⟩ <;> rw [getField_taggedWord_low low _ (by norm_num)]
  all_goals cases e <;> decide

theorem measRecord_words (u : UnitId) {count : Nat} (hc : count ≤ 0xFFFFFF) (time : Word) (tag : Byte) : ∃ w,
    (measRecord u count time tag).words = [headerWord .meas u.val 0 3 0 0, time, w] ∧
    getField w 24 0 = count ∧ getField w 8 24 = tag.toNat := by
  have h : count < 2 ^ 24 := by omega
  exact ⟨_, rfl, getField_taggedWord_whole h _, getField_taggedWord_tag h _⟩

theorem markRecord_words (step : Fin 16) (v : Byte) (time : Word) (tag : Byte) : ∃ w,
    (markRecord step v time tag).words = [headerWord .mark 0 0 3 0 0, time, w] ∧
    getField w 4 0 = step.val ∧ getField w 4 4 = 0 ∧ getField w 8 8 = v.toNat ∧ getField w 8 16 = 0 ∧
    getField w 8 24 = tag.toNat := by
  have hs := step.isLt
  have hv := v.isLt
  have e : wordField step.val 4 0 + wordField v.toNat 8 8 = step.val + v.toNat * 256 := by
    rw [wordField_of_lt hs, wordField_of_lt hv]; norm_num
  have low : step.val + v.toNat * 256 < 2 ^ 24 := by omega
  refine ⟨_, rfl, ?_⟩
  simp only [e]
  refine ⟨?_, ?_, ?_, ?_, getField_taggedWord_tag low _⟩ <;>
    (rw [getField_taggedWord_low low _ (by norm_num)]; norm_num; omega)

theorem FireCause.code_lt (c : FireCause) : c.code < 4 := by cases c <;> decide

theorem trigRecord_words (f : FireRecord) : ∃ w, (trigRecord f).words = [headerWord .trig 0 0 3 0 0, f.time, w] ∧
    getField w 4 0 = f.step.val ∧ getField w 4 4 = 0 ∧
    getField w 2 8 = (match f.cause with | .matched => 0 | .elsed => 1 | .forced => 2) ∧ getField w 14 10 = 0 ∧
    getField w 8 24 = f.tag.toNat := by
  have hs := f.step.isLt
  have hc := f.cause.code_lt
  have e : wordField f.step.val 4 0 + wordField f.cause.code 2 8 = f.step.val + f.cause.code * 256 := by
    rw [wordField_of_lt hs, wordField_of_lt hc]; norm_num
  have low : f.step.val + f.cause.code * 256 < 2 ^ 24 := by omega
  have code : (match f.cause with | .matched => 0 | .elsed => 1 | .forced => 2) = f.cause.code := by
    cases f.cause <;> rfl
  refine ⟨_, rfl, ?_⟩
  simp only [e, code]
  refine ⟨?_, ?_, ?_, ?_, getField_taggedWord_tag low _⟩ <;>
    (rw [getField_taggedWord_low low _ (by norm_num)]; norm_num; omega)

theorem lossWords_words {msgs other : Nat} (hm : msgs ≤ 65535) (ho : other ≤ 65535) : ∃ w,
    lossWords msgs other = [headerWord .loss 0 0 2 0 0, w] ∧ getField w 16 0 = msgs ∧ getField w 16 16 = other := by
  refine ⟨_, rfl, ?_⟩
  rw [wordField_of_lt (show msgs < 2 ^ 16 by omega), wordField_of_lt (show other < 2 ^ 16 by omega)]
  constructor <;> (rw [getField_ofNat (by norm_num; omega)]; norm_num; omega)

/-! ### Data bytes and status entries of an MSG record (R128) -/

theorem natOfBytes_lt (bs : List Byte) : natOfBytes bs < 256 ^ bs.length := by
  induction bs with
  | nil => simp [natOfBytes]
  | cons b t ih =>
    have hb := b.isLt
    rw [natOfBytes, List.length_cons, pow_succ]
    omega

/-- The k-th byte of a number in little-endian bytes. -/
theorem natOfBytes_div_mod (bs : List Byte) {k : Nat} {b : Byte} (hk : bs[k]? = some b) :
    natOfBytes bs / 256 ^ k % 256 = b.toNat := by
  induction bs generalizing k with
  | nil => simp at hk
  | cons x t ih =>
    have hx := x.isLt
    cases k with
    | zero =>
      obtain rfl : x = b := by simpa using hk
      rw [natOfBytes]
      omega
    | succ k =>
      rw [natOfBytes, pow_succ', ← Nat.div_div_eq_div_mul, Nat.add_mul_div_left _ _ (by norm_num),
        Nat.div_eq_of_lt hx, Nat.zero_add]
      exact ih (by simpa using hk)

/-- Up to four bytes stand in their word, the first lowest. -/
theorem getField_wordOfBytes {bs : List Byte} (four : bs.length ≤ 4) {k : Nat} {b : Byte} (hk : bs[k]? = some b) :
    getField (wordOfBytes bs) 8 (8 * k) = b.toNat := by
  have bound : natOfBytes bs < 2 ^ 32 := by
    calc natOfBytes bs < 256 ^ bs.length := natOfBytes_lt bs
      _ ≤ 256 ^ 4 := Nat.pow_le_pow_right (by norm_num) four
      _ = 2 ^ 32 := by norm_num
  rw [wordOfBytes, getField_ofNat bound, pow_mul, show (2 : Nat) ^ 8 = 256 by norm_num]
  exact natOfBytes_div_mod bs hk

/-- Bytes beyond the first four stand in the words after the first. -/
theorem dataWords_four (a b c d : Byte) (t : List Byte) :
    dataWords (a :: b :: c :: d :: t) = wordOfBytes [a, b, c, d] :: dataWords t := by rw [dataWords]

theorem dataWords_few {bs : List Byte} (any : bs ≠ []) (few : bs.length < 4) : dataWords bs = [wordOfBytes bs] := by
  match bs, any, few with
  | [a], _, _ => simp [dataWords]
  | [a, b], _, _ => simp [dataWords]
  | [a, b, c], _, _ => simp [dataWords]

theorem dataWords_length (bs : List Byte) : (dataWords bs).length = (bs.length + 3) / 4 := by
  match bs with
  | [] => rw [dataWords]; rfl
  | [a] => simp [dataWords_few]
  | [a, b] => simp [dataWords_few]
  | [a, b, c] => simp [dataWords_few]
  | a :: b :: c :: d :: t =>
    rw [dataWords_four, List.length_cons, dataWords_length t]
    simp only [List.length_cons]
    omega

theorem dataWords_byte (bs : List Byte) {k : Nat} {b : Byte} (hk : bs[k]? = some b) :
    ∃ w, (dataWords bs)[k / 4]? = some w ∧ getField w 8 (8 * (k % 4)) = b.toNat := by
  have inside : k < bs.length := (List.getElem?_eq_some_iff.1 hk).1
  by_cases few : bs.length < 4
  · have first : k / 4 = 0 := by omega
    have place : k % 4 = k := by omega
    refine ⟨wordOfBytes bs, ?_, by rw [place]; exact getField_wordOfBytes (by omega) hk⟩
    rw [dataWords_few (by rintro rfl; simp at inside) few, first]
    rfl
  · match bs, few with
    | a :: x :: c :: d :: t, _ =>
      rw [dataWords_four]
      by_cases here : k < 4
      · have first : k / 4 = 0 := by omega
        have place : k % 4 = k := by omega
        have split : a :: x :: c :: d :: t = [a, x, c, d] ++ t := rfl
        rw [split, List.getElem?_append_left (by simpa using here)] at hk
        refine ⟨_, by rw [first]; rfl, ?_⟩
        rw [place]
        exact getField_wordOfBytes (by simp) hk
      · obtain ⟨j, rfl⟩ : ∃ j, k = j + 4 := ⟨k - 4, by omega⟩
        obtain ⟨w, hw, byte⟩ := dataWords_byte t (k := j) (by simpa using hk)
        exact ⟨w, by simpa using hw, by simpa using byte⟩
    | [], h | [_], h | [_, _], h | [_, _, _], h => simp at h

theorem StatusKind.code_lt (k : StatusKind) : k.code < 4 := by cases k <;> decide

theorem entryBits_eq {e : StatusEntry} (h : e.position ≤ 255) : entryBits e = e.position + e.kind.code * 256 := by
  rw [entryBits, wordField_of_lt (show e.position < 2 ^ 8 by omega), wordField_of_lt e.kind.code_lt]
  norm_num

theorem entryBits_lt (e : StatusEntry) : entryBits e < 1024 := by
  have h1 := Nat.mod_lt e.position (show 2 ^ 8 > 0 by norm_num)
  have h2 := Nat.mod_lt e.kind.code (show 2 ^ 2 > 0 by norm_num)
  simp only [entryBits, wordField]
  omega

theorem statusWords_length (l : List StatusEntry) : (statusWords l).length = (l.length + 1) / 2 := by
  match l with
  | [] => rw [statusWords]; rfl
  | [a] => simp [statusWords]
  | a :: b :: t =>
    rw [statusWords, List.length_cons, statusWords_length t]
    simp only [List.length_cons]
    omega

/-- An entry's fields, in the low or the high half of its word. -/
theorem statusWords_entry (l : List StatusEntry) {k : Nat} {e : StatusEntry} (hk : l[k]? = some e)
    (hp : e.position ≤ 255) :
    ∃ w, (statusWords l)[k / 2]? = some w ∧ getField w 8 (16 * (k % 2)) = e.position ∧
      getField w 2 (16 * (k % 2) + 8) = e.kind.code := by
  have bits := entryBits_eq hp
  have code := e.kind.code_lt
  match l with
  | [] => simp at hk
  | [a] =>
    obtain ⟨rfl, rfl⟩ : k = 0 ∧ a = e := by
      cases k with
      | zero => simpa using hk
      | succ k => simp at hk
    refine ⟨_, rfl, ?_⟩
    rw [bits]
    constructor <;> (rw [getField_ofNat (by omega)]; norm_num; omega)
  | a :: b :: t =>
    have ha := entryBits_lt a
    have hb := entryBits_lt b
    rw [statusWords]
    match k with
    | 0 =>
      obtain rfl : a = e := by simpa using hk
      refine ⟨_, rfl, ?_⟩
      constructor <;> (rw [getField_ofNat (by omega)]; norm_num; omega)
    | 1 =>
      obtain rfl : b = e := by simpa using hk
      refine ⟨_, rfl, ?_⟩
      constructor <;> (rw [getField_ofNat (by omega)]; norm_num; omega)
    | k + 2 =>
      obtain ⟨w, hw, fields⟩ := statusWords_entry t (k := k) (by simpa using hk) hp
      exact ⟨w, by simpa using hw, by simpa using fields⟩

/-! ### The MSG record (R30, R128) -/

theorem EndCause.code_lt (c : EndCause) : c.code < 4 := by cases c <;> decide

/-- The header flags of a message as a number. -/
theorem MsgFlags.headerBits_eq (f : MsgFlags) (sliced : Bool) :
    f.headerBits sliced =
      f.par.toNat + f.frm.toNat * 2 + f.noi.toNat * 4 + f.trunc.toNat * 8 + sliced.toNat * 16 + f.own.toNat * 32 +
        f.coll.toNat * 64 + f.addrStart.toNat * 128 + f.orphan.toNat * 256 + f.statOvf.toNat * 512 := by
  simp only [MsgFlags.headerBits, wordBit_eq]
  norm_num

theorem MsgFlags.headerBits_lt (f : MsgFlags) (sliced : Bool) : f.headerBits sliced < 1024 := by
  rw [MsgFlags.headerBits_eq]
  have := Bool.toNat_le f.par; have := Bool.toNat_le f.frm; have := Bool.toNat_le f.noi
  have := Bool.toNat_le f.trunc; have := Bool.toNat_le sliced; have := Bool.toNat_le f.own
  have := Bool.toNat_le f.coll; have := Bool.toNat_le f.addrStart; have := Bool.toNat_le f.orphan
  have := Bool.toNat_le f.statOvf
  omega

theorem msgBody_length (m : Message) (index : Option Nat) (slice : Nat) :
    (msgBody m index slice).length = 3 + ((keptBytes m slice).length + 3) / 4 + (m.status.length + 1) / 2 := by
  simp only [msgBody, List.length_append, dataWords_length, statusWords_length, List.length_cons, List.length_nil]

theorem keptBytes_length_le (m : Message) (slice : Nat) : (keptBytes m slice).length ≤ m.stored.length := by
  simp [keptBytes]

/-- The flags of the header stand from bit 16 on. -/
theorem headerWord_flag (kind : RecKind) {source cause size entries : Nat} (hs : source < 4) (hc : cause < 4)
    (hz : size < 256) (he : entries < 16) (f : MsgFlags) (sliced : Bool) {h : Word}
    (hh : h = headerWord kind source cause size (f.headerBits sliced) entries) :
    h.getLsbD 16 = f.par ∧ h.getLsbD 17 = f.frm ∧ h.getLsbD 18 = f.noi ∧ h.getLsbD 19 = f.trunc ∧
      h.getLsbD 20 = sliced ∧ h.getLsbD 21 = f.own ∧ h.getLsbD 22 = f.coll ∧ h.getLsbD 23 = f.addrStart ∧
      h.getLsbD 24 = f.orphan ∧ h.getLsbD 25 = f.statOvf ∧ h.getLsbD 26 = false ∧ h.getLsbD 27 = false := by
  have hk := kind.code_lt
  have hf := f.headerBits_lt sliced
  rw [hh, headerWord_eq kind hs hc hz (by omega) he]
  have bound : kind.code + source * 16 + cause * 64 + size * 256 + f.headerBits sliced * 65536 +
      entries * 268435456 < 2 ^ 32 := by omega
  have shift : ∀ j, j < 12 → (kind.code + source * 16 + cause * 64 + size * 256 + f.headerBits sliced * 65536 +
      entries * 268435456) / 2 ^ (16 + j) % 2 = f.headerBits sliced / 2 ^ j % 2 := by
    intro j hj
    have low : (kind.code + source * 16 + cause * 64 + size * 256 + f.headerBits sliced * 65536 +
        entries * 268435456) / 2 ^ 16 = f.headerBits sliced + entries * 4096 := by omega
    rw [pow_add, ← Nat.div_div_eq_div_mul, low]
    interval_cases j <;> omega
  have bits := f.headerBits_eq sliced
  have := Bool.toNat_le f.par; have := Bool.toNat_le f.frm; have := Bool.toNat_le f.noi
  have := Bool.toNat_le f.trunc; have := Bool.toNat_le sliced; have := Bool.toNat_le f.own
  have := Bool.toNat_le f.coll; have := Bool.toNat_le f.addrStart; have := Bool.toNat_le f.orphan
  have := Bool.toNat_le f.statOvf
  have bit : ∀ j b, j < 12 → f.headerBits sliced / 2 ^ j % 2 = b.toNat → (BitVec.ofNat 32 (kind.code + source * 16 +
      cause * 64 + size * 256 + f.headerBits sliced * 65536 + entries * 268435456)).getLsbD (16 + j) = b :=
    fun j b hj e => getLsbD_ofNat bound _ ((shift j hj).trans e)
  refine ⟨bit 0 _ (by omega) ?_, bit 1 _ (by omega) ?_, bit 2 _ (by omega) ?_, bit 3 _ (by omega) ?_,
    bit 4 _ (by omega) ?_, bit 5 _ (by omega) ?_, bit 6 _ (by omega) ?_, bit 7 _ (by omega) ?_,
    bit 8 _ (by omega) ?_, bit 9 _ (by omega) ?_, bit 10 false (by omega) ?_, bit 11 false (by omega) ?_⟩
  all_goals norm_num
  all_goals omega

/-- The lengths and the deciding entry in the fourth word. -/
theorem msgLengths_fields {received kept index : Nat} (hr : received < 65536) (hk : kept < 512) (hi : index < 64)
    {w : Word} (hw : w = BitVec.ofNat 32 (wordField received 16 0 + wordField kept 9 16 + wordField index 6 25)) :
    getField w 16 0 = received ∧ getField w 9 16 = kept ∧ getField w 6 25 = index ∧ getField w 1 31 = 0 := by
  rw [hw, wordField_of_lt hr, wordField_of_lt hk, wordField_of_lt hi]
  refine ⟨?_, ?_, ?_, ?_⟩ <;> (rw [getField_ofNat (by norm_num; omega)]; norm_num; omega)

/-- Settles O45: each word is a sum of fields that do not overlap. -/
theorem recordLayouts : Obligations.RecordLayouts := by
  refine ⟨fun k => by cases k <;> rfl, fun h => ⟨rfl, rfl⟩,
    fun kind _ _ _ _ _ h hs hc hz hf he hh => headerWord_fields kind hs hc hz hf he hh, ?msg,
    fun i b hd => brkRecord_words i hd, epochRecord_words, syncRecord_words, fun u _ time tag hc => measRecord_words u hc time tag,
    markRecord_words, trigRecord_words, fun _ _ hm ho => lossWords_words hm ho⟩
  rintro line cause m index slice kept hStored hStatus hReceived hEnd hIndex rfl
  have keptLen : (keptBytes m slice).length ≤ 256 := (keptBytes_length_le m slice).trans hStored
  have rest : (dataWords (keptBytes m slice) ++ statusWords m.status).length =
      ((keptBytes m slice).length + 3) / 4 + (m.status.length + 1) / 2 := by
    rw [List.length_append, dataWords_length, statusWords_length]
  have size : (msgBody m index slice).length + 1 < 256 := by rw [msgBody_length]; omega
  have fields := headerWord_fields .msg line.isLt cause.code_lt size
    ((m.flags.headerBits_lt (sliced m slice)).trans (by norm_num)) (show m.status.length < 16 by omega) rfl
  have flags := headerWord_flag .msg line.isLt cause.code_lt size (show m.status.length < 16 by omega) m.flags
    (sliced m slice) rfl
  have entry : index.getD 63 < 64 := by
    cases h : index with
    | none => simp
    | some n => have := hIndex n h; simp; omega
  have lengths := msgLengths_fields (show m.received < 65536 by omega)
    (show (keptBytes m slice).length < 512 by omega) entry rfl
  have last : m.lastEnd < 2 ^ 24 := by omega
  obtain ⟨kind, source, endCause, words, -, entries⟩ := fields
  refine ⟨_, _, _, dataWords (keptBytes m slice) ++ statusWords m.status, rfl, rest, kind, source, ?_, ?_, entries,
    flags, getField_taggedWord_whole last _, getField_taggedWord_tag last _, lengths.1, lengths.2.1, lengths.2.2.1,
    lengths.2.2.2, fun k b hk => ?_, fun k e hk hp => ?_⟩
  · rw [endCause]; cases cause <;> rfl
  · rw [words, rest, msgBody_length]; omega
  · obtain ⟨w, hw, byte⟩ := dataWords_byte _ hk
    have inside := (List.getElem?_eq_some_iff.1 hw).1
    exact ⟨w, (List.getElem?_append_left inside).trans hw, byte⟩
  · obtain ⟨w, hw, position, code⟩ := statusWords_entry _ hk hp
    have behind : (dataWords (keptBytes m slice) ++ statusWords m.status)[((keptBytes m slice).length + 3) / 4 + k / 2]? =
        some w := by
      rw [← dataWords_length, List.getElem?_append_right (by omega), Nat.add_sub_cancel_left]
      exact hw
    refine ⟨w, behind, position, ?_⟩
    rw [code]
    cases e.kind <;> rfl

end Sys2Proof.Machine

/-! PROOFS. Offers (R105 to R118): the words an admitted record is written in, the ways an offer can end, and what every
one of them keeps of the region, of the memory and of the other regions. -/

namespace Sys2Proof.Machine

/-! ### The words of an admitted record (R107, R111) -/

/-- The words written ahead of an admitted record: a LOSS record while refusals are pending (R107). -/
def Region.lossPart (r : Region) : List Word :=
  if r.refusalsPending then lossWords r.pendMsgs r.pendOther else []

theorem Region.refusalsPending_iff (r : Region) : r.refusalsPending = true ↔ r.pendMsgs ≠ 0 ∨ r.pendOther ≠ 0 := by
  simp [Region.refusalsPending]

theorem Region.lossPart_of_none {r : Region} (h : r.refusalsPending = false) : r.lossPart = [] := by
  simp [Region.lossPart, h]

theorem Region.lossPart_of_some {r : Region} (h : r.refusalsPending = true) :
    r.lossPart = lossWords r.pendMsgs r.pendOther := by
  simp [Region.lossPart, h]

theorem Region.roomNeeded_eq (r : Region) (rec : Rec) : r.roomNeeded rec = (r.lossPart ++ rec.words).length := by
  cases h : r.refusalsPending
  · simp [Region.roomNeeded, Region.lossPart, Rec.size, h]
  · simp [Region.roomNeeded, Region.lossPart, Rec.size, h, lossWords]

/-- How many records an admitted record adds: its own and a LOSS record ahead of it. -/
def Region.recordsAdded (r : Region) : Nat := if r.refusalsPending then 2 else 1

/-- The counter of written records after an admitted record. -/
def Region.writtenAfter (r : Region) : Nat :=
  if r.refusalsPending then satInc Config.count32Max (satInc Config.count32Max r.written)
  else satInc Config.count32Max r.written

/-- An admitted record is written, before the region's state is judged. -/
def Placed.put (p : Placed) (ws : List Word) : Placed := p.writeLoss.write ws

theorem Region.writeWords_append (r : Region) (a b : List Word) (m : List Host.Cell) {p : Nat} (hp : p < r.words) :
    r.writeWords m p (a ++ b) = r.writeWords (r.writeWords m p a) (r.advance p a.length) b := by
  have key : ∀ (a : List Word) (m : List Host.Cell) (p : Nat), r.advance p 0 = p →
      r.writeWords m p (a ++ b) = r.writeWords (r.writeWords m p a) (r.advance p a.length) b := by
    intro a
    induction a with
    | nil => intro m p hp; simp [Region.writeWords, hp]
    | cons v t ih =>
      intro m p _
      simp only [List.cons_append, Region.writeWords, ih _ (r.advance p 1) (by simp), Region.advance_advance,
        List.length_cons, Nat.add_comm 1]
  exact key a m p (Region.advance_zero hp)

theorem Region.writeWords_congr {r t : Region} (base : t.base = r.base) (size : t.size = r.size) (ws : List Word)
    (m : List Host.Cell) (p : Nat) : t.writeWords m p ws = r.writeWords m p ws := by
  induction ws generalizing m p with
  | nil => rfl
  | cons v rest ih =>
    rw [Region.writeWords, Region.writeWords, ih, Region.advance_congr size, Region.wordAt, Region.wordAt, base]

/-- The region with its pending refusals taken into a LOSS record. -/
def Region.noPending (r : Region) : Region := { r with pendMsgs := 0, pendOther := 0 }

theorem Region.noPending_of_none {r : Region} (h : r.refusalsPending = false) : r.noPending = r := by
  simp only [Region.refusalsPending, Bool.or_eq_false_iff, bne_eq_false_iff_eq] at h
  obtain ⟨msgs, other⟩ := h
  cases r
  cases msgs
  cases other
  rfl

theorem Placed.writeLoss_of_none {p : Placed} (h : p.region.refusalsPending = false) : p.writeLoss = p := by
  simp [Placed.writeLoss, h]

theorem Placed.writeLoss_of_some {p : Placed} (h : p.region.refusalsPending = true) :
    p.writeLoss = Placed.write { p with region := p.region.noPending } p.region.lossPart := by
  simp [Placed.writeLoss, h, Region.lossPart, Region.noPending]

/-- The region after an admitted record of these words has been written. -/
def Region.withWords (r : Region) (n : Nat) : Region :=
  { r with
    tail := r.advance r.tail (r.lossPart.length + n), used := r.used + (r.lossPart.length + n)
    unread := r.unread + (r.lossPart.length + n), count := r.count + r.recordsAdded
    written := r.writtenAfter, pendMsgs := 0, pendOther := 0 }

theorem Placed.put_region (p : Placed) (ws : List Word) : (p.put ws).region = p.region.withWords ws.length := by
  cases h : p.region.refusalsPending
  · have clear := Region.noPending_of_none h
    rw [Placed.put, Placed.writeLoss_of_none h, Placed.write_region]
    simp only [Region.withWords, Region.recordsAdded, Region.writtenAfter, Region.lossPart_of_none h, h,
      List.length_nil, Nat.zero_add, Bool.false_eq_true, if_false]
    conv_lhs => rw [← clear]
    rfl
  · have ahead : p.region.lossPart.length = 2 := by rw [Region.lossPart_of_some h]; rfl
    rw [Placed.put, Placed.writeLoss_of_some h, Placed.write_region, Placed.write_region]
    simp only [Region.withWords, Region.recordsAdded, Region.writtenAfter, h, if_true, ahead, Region.noPending,
      Nat.add_assoc]
    congr 1
    exact Region.advance_advance p.region p.region.tail 2 ws.length

theorem Placed.put_mem {p : Placed} (tail : p.region.tail < p.region.words) (ws : List Word) :
    (p.put ws).mem = p.region.writeWords p.mem p.region.tail (p.region.lossPart ++ ws) := by
  cases h : p.region.refusalsPending
  · rw [Placed.put, Placed.writeLoss_of_none h, Region.lossPart_of_none h]; rfl
  · rw [Region.writeWords_append _ _ _ _ tail, Placed.put, Placed.writeLoss_of_some h]
    have first : p.region.noPending.writeWords p.mem p.region.tail p.region.lossPart =
        p.region.writeWords p.mem p.region.tail p.region.lossPart :=
      Region.writeWords_congr (r := p.region) (t := p.region.noPending) rfl rfl _ _ _
    rw [← first]
    exact Region.writeWords_congr (r := p.region)
      (t := (Placed.write { p with region := p.region.noPending } p.region.lossPart).region) rfl rfl _ _ _

theorem Placed.put_wf (p : Placed) (w : Memory.wf p.mem = true) (ws : List Word) : Memory.wf (p.put ws).mem = true := by
  cases h : p.region.refusalsPending
  · rw [Placed.put, Placed.writeLoss_of_none h]; exact Region.writeWords_wf _ _ w _
  · rw [Placed.put, Placed.writeLoss_of_some h]
    exact Region.writeWords_wf _ _ (Region.writeWords_wf _ _ w _) _

/-! ### The ways an offer can end (R105 to R114) -/

/-- The region takes no record now. -/
def RegionState.resting (st : RegionState) : Prop := st = .disabled ∨ st = .stopped ∨ st = .frozen

/-- The region takes records and a TRIG record only in ARMED (R106). -/
def Region.takes (r : Region) (rec : Rec) : Prop :=
  (r.state = .run ∨ r.state = .armed ∨ r.state = .postfill) ∧ (rec.kind = .trig → r.state = .armed)

/-- Every way in which an offer can end, with what held before. -/
inductive OfferEnd (id : RegionId) (p : Placed) (rec : Rec) : Offered → Prop
  /-- not taken and not counted -/
  | ignored : OfferEnd id p rec { placed := p, recorded := false, notices := [] }
  /-- counted as refused by a region that takes no record (R105) -/
  | resting : p.region.state.resting → (rec.kind = .msg ∨ rec.kind = .brk) →
      OfferEnd id p rec
        { placed := { p with region := p.region.countRefused rec.kind }, recorded := false, notices := [] }
  /-- refused for lack of room (R109) -/
  | noRoom : (p.region.state = .run ∨ p.region.state = .armed) → OfferEnd id p rec (p.refuseForRoom rec.kind)
  /-- refused, and the region freezes (R112, R114) -/
  | frozen (short trigMissing : Bool) : (p.region.state = .armed ∨ p.region.state = .postfill) →
      OfferEnd id p rec (p.refuseAndFreeze id rec.kind short trigMissing)
  /-- written, after as many discards as it took (R107, R108) -/
  | written (k : Nat) : p.region.takes rec → k ≤ p.region.count → (p.region.state = .postfill → k = 0) →
      p.region.roomNeeded rec ≤ (Region.discards p.mem k p.region).free →
      OfferEnd id p rec (Placed.takeIn id { p with region := Region.discards p.mem k p.region } rec)

theorem Placed.receive_ends (id : RegionId) {p : Placed} {rec : Rec} (takes : p.region.takes rec) :
    OfferEnd id p rec (p.receive id rec) := by
  unfold Placed.receive
  dsimp only
  by_cases room : p.region.roomNeeded rec ≤ p.region.free
  · rw [if_pos room]
    exact .written 0 takes (Nat.zero_le _) (fun _ => rfl) room
  · rw [if_neg room]
    by_cases post : p.region.state = .postfill
    · rw [if_pos post]
      exact .frozen _ _ (.inr post)
    · rw [if_neg post]
      have taking : p.region.state = .run ∨ p.region.state = .armed := by
        rcases takes.1 with h | h | h
        · exact .inl h
        · exact .inr h
        · exact absurd h post
      cases p.region.policy with
      | roll =>
        dsimp only
        obtain ⟨k, held, e, -, -⟩ :=
          Region.makeRoom_eq_discards p.mem p.region.count p.region (p.region.roomNeeded rec)
        rw [e]
        split_ifs with made
        · exact .written k takes held (fun h => absurd h post) made
        · exact .noRoom taking
      | stop =>
        dsimp only
        split_ifs with trig
        · exact .frozen _ _ (.inl (takes.2 trig))
        · exact .noRoom taking

theorem Placed.offer_ends (id : RegionId) (p : Placed) (rec : Rec) : OfferEnd id p rec (p.offer id rec) := by
  have resting : p.region.state.resting →
      OfferEnd id p rec
        (if rec.kind = .msg ∨ rec.kind = .brk then
          { placed := { p with region := p.region.countRefused rec.kind }, recorded := false, notices := [] }
        else { placed := p, recorded := false, notices := [] }) := by
    intro rests
    split_ifs with counted
    · exact .resting rests counted
    · exact .ignored
  have running : (p.region.state = .run ∨ p.region.state = .postfill) →
      OfferEnd id p rec
        (if rec.kind = .trig then { placed := p, recorded := false, notices := [] } else p.receive id rec) := by
    intro runs
    split_ifs with trig
    · exact .ignored
    · exact Placed.receive_ends id ⟨by tauto, fun e => absurd e trig⟩
  unfold Placed.offer
  cases h : p.region.state with
  | disabled => exact resting (.inl h)
  | stopped => exact resting (.inr (.inl h))
  | frozen => exact resting (.inr (.inr h))
  | armed => exact Placed.receive_ends id ⟨.inr (.inl h), fun _ => h⟩
  | run => exact running (.inl h)
  | postfill => exact running (.inr h)

theorem Placed.takeIn_mem (id : RegionId) (p : Placed) (rec : Rec) :
    (p.takeIn id rec).placed.mem = (p.put rec.words).mem := rfl

theorem Placed.takeIn_region (id : RegionId) (p : Placed) (rec : Rec) :
    (p.takeIn id rec).placed.region =
      (((p.region.withWords rec.words.length).afterWrite id rec.kind).1.judgeThreshold id).1 := by
  rw [← Placed.put_region]; rfl

/-! ### Soundness apart from the threshold marker -/

/-- What a region's soundness says apart from its threshold marker, which is judged when an act is complete (R118). -/
structure Region.SoundBut (r : Region) : Prop where
  disabled : r.state = .disabled ↔ r.size = 0
  placed : r.state ≠ .disabled → 2 ≤ r.size ∧ r.base + r.size ≤ 256 ∧ r.head < r.words ∧ r.cursor < r.words ∧
    r.tail < r.words
  used : r.used ≤ r.words
  armed : r.state = .armed → r.hasTrig = false
  postfill : r.state = .postfill → r.quota ≠ 0 ∧ r.pendMsgs = 0 ∧ r.pendOther = 0

theorem Region.sound_iff (r : Region) :
    r.Sound ↔ r.SoundBut ∧ (r.crossed = true ↔ r.threshold ≠ 0 ∧ r.threshold ≤ r.used) := by
  constructor
  · rintro ⟨h1, h2, h3, h4, h5, h6⟩
    exact ⟨⟨h1, h2, h3, h5, h6⟩, h4⟩
  · rintro ⟨⟨h1, h2, h3, h5, h6⟩, h4⟩
    exact ⟨h1, h2, h3, h4, h5, h6⟩

theorem Region.Sound.but {r : Region} (h : r.Sound) : r.SoundBut := ((Region.sound_iff r).1 h).1

theorem Region.SoundBut.words_pos {r : Region} (h : r.SoundBut) (on : r.state ≠ .disabled) : 0 < r.words :=
  Nat.zero_lt_of_lt (h.placed on).2.2.1

/-- Judging the threshold makes the marker true to the used words. -/
theorem Region.SoundBut.judged {r : Region} (h : r.SoundBut) (id : RegionId) : (r.judgeThreshold id).1.Sound := by
  rw [Region.sound_iff]
  refine ⟨?_, ?_⟩
  · rw [Region.judgeThreshold_keeps]; exact ⟨h.disabled, h.placed, h.used, h.armed, h.postfill⟩
  · have crossed := Region.judgeThreshold_crossed id r
    rw [Region.judgeThreshold_keeps] at crossed ⊢
    exact crossed

theorem Region.SoundBut.discard {r : Region} (h : r.SoundBut) (on : r.state ≠ .disabled) (m : List Host.Cell) :
    (r.discard m).SoundBut := by
  have pos := h.words_pos on
  obtain ⟨two, inside, -, cursor, tail⟩ := h.placed on
  have head : r.advance r.head (headerSize (r.headerAt m r.head)) < r.words := Nat.mod_lt _ pos
  refine ⟨h.disabled, fun _ => ⟨two, inside, head, ?_, tail⟩, (Nat.sub_le _ _).trans h.used, fun a => ?_, h.postfill⟩
  · simp only [Region.discard]
    split_ifs
    · exact head
    · exact cursor
  · simp [Region.discard, h.armed a]

theorem Region.discards_state (m : List Host.Cell) (k : Nat) (r : Region) :
    (Region.discards m k r).state = r.state := by rw [Region.discards_keeps]

theorem Region.SoundBut.discards {r : Region} (h : r.SoundBut) (on : r.state ≠ .disabled) (m : List Host.Cell)
    (k : Nat) : (Region.discards m k r).SoundBut := by
  induction k with
  | zero => exact h
  | succ k ih =>
    rw [Region.discards_succ]
    exact ih.discard (by rwa [Region.discards_state]) m

theorem Region.SoundBut.withWords {r : Region} (h : r.SoundBut) (on : r.state ≠ .disabled) {n : Nat}
    (fits : r.lossPart.length + n ≤ r.free) : (r.withWords n).SoundBut := by
  obtain ⟨two, inside, head, cursor, -⟩ := h.placed on
  have used := h.used
  refine ⟨h.disabled, fun _ => ⟨two, inside, head, cursor, Nat.mod_lt _ (h.words_pos on)⟩, ?_, h.armed,
    fun post => ⟨(h.postfill post).1, rfl, rfl⟩⟩
  show r.used + (r.lossPart.length + n) ≤ r.words
  simp only [Region.free] at fits
  omega

/-- A written record of a region with no refusal pending leaves it sound in its new state (R113, R115). -/
theorem Region.SoundBut.afterWrite {r : Region} (h : r.SoundBut) (on : r.state ≠ .disabled)
    (clear : r.pendMsgs = 0 ∧ r.pendOther = 0) (id : RegionId) (kind : RecKind) :
    (r.afterWrite id kind).1.SoundBut := by
  have size : r.size ≠ 0 := fun e => on (h.disabled.2 e)
  have placed := h.placed on
  have frozen : ∀ a b : Bool, ∀ t : Region, t.size = r.size → t.base = r.base → t.head = r.head →
      t.cursor = r.cursor → t.tail = r.tail → t.used = r.used → (t.freeze id a b).1.SoundBut := by
    intro a b t e1 e2 e3 e4 e5 e6
    refine ⟨by simp [Region.freeze, e1, size], fun _ => ?_, ?_, by simp [Region.freeze], by simp [Region.freeze]⟩
    · simp only [Region.freeze, Region.words, e1, e2, e3, e4, e5]; exact placed
    · simp only [Region.freeze, Region.words, e1, e6]; exact h.used
  have filling : r.state = .postfill → r.quota - 1 ≠ 0 →
      ({ r with quota := r.quota - 1 } : Region).SoundBut :=
    fun post left => ⟨h.disabled, h.placed, h.used, h.armed, fun _ => ⟨left, (h.postfill post).2⟩⟩
  have data : (if r.state = .postfill then
      if r.quota - 1 = 0 then ({ r with quota := r.quota - 1 } : Region).freeze id false false
      else ({ r with quota := r.quota - 1 }, [])
      else (r, [])).1.SoundBut := by
    split_ifs with post last
    · exact frozen _ _ _ rfl rfl rfl rfl rfl rfl
    · exact filling post last
    · exact h
  cases kind with
  | trig =>
    simp only [Region.afterWrite]
    split_ifs with none
    · exact frozen _ _ _ rfl rfl rfl rfl rfl rfl
    · exact ⟨by simp [size], fun _ => placed, h.used, by simp, fun _ => ⟨none, clear⟩⟩
  | msg => exact data
  | brk => exact data
  | epoch | sync | meas | mark | loss => exact h

/-- A refusal moves counters that soundness does not speak of, outside POSTFILL. -/
theorem Region.Sound.countRefused {r : Region} (h : r.Sound) (kind : RecKind) : (r.countRefused kind).Sound := by
  cases kind <;> exact h

theorem Region.Sound.countPending {r : Region} (h : r.Sound) (filling : r.state ≠ .postfill) (kind : RecKind) :
    (r.countPending kind).Sound := by
  obtain ⟨h1, h2, h3, h4, h5, -⟩ := h
  cases kind <;> exact ⟨h1, h2, h3, h4, h5, fun post => absurd post filling⟩

theorem Region.countRefused_state (kind : RecKind) (r : Region) : (r.countRefused kind).state = r.state := by
  cases kind <;> rfl

theorem Region.Sound.freeze {r : Region} (h : r.Sound) (on : r.state ≠ .disabled) (id : RegionId) (a b : Bool) :
    (r.freeze id a b).1.Sound := by
  obtain ⟨h1, h2, h3, h4, h5, -⟩ := h
  have size : r.size ≠ 0 := fun e => on (h1.2 e)
  exact ⟨by simp [Region.freeze, size], fun _ => h2 on, h3, h4, by simp [Region.freeze], by simp [Region.freeze]⟩

theorem Region.takes.on {r : Region} {rec : Rec} (h : r.takes rec) : r.state ≠ .disabled := by
  rcases h.1 with e | e | e <;> simp [e]

theorem Region.discards_lossPart (m : List Host.Cell) (k : Nat) (r : Region) :
    (Region.discards m k r).lossPart = r.lossPart := by rw [Region.discards_keeps]; rfl

theorem Region.lossPart_fits {r : Region} {rec : Rec} {m : List Host.Cell} {k : Nat}
    (room : r.roomNeeded rec ≤ (Region.discards m k r).free) :
    (Region.discards m k r).lossPart.length + rec.words.length ≤ (Region.discards m k r).free := by
  rwa [Region.roomNeeded_eq, List.length_append, ← Region.discards_lossPart m k] at room

theorem Placed.offer_sound (id : RegionId) {p : Placed} (rec : Rec) (h : p.region.Sound) :
    (p.offer id rec).placed.region.Sound := by
  have ends := Placed.offer_ends id p rec
  generalize p.offer id rec = o at ends ⊢
  cases ends with
  | ignored => exact h
  | resting => exact h.countRefused _
  | noRoom taking =>
    refine (h.countRefused _).countPending ?_ _
    rw [Region.countRefused_state]
    rcases taking with e | e <;> simp [e]
  | frozen a b taking =>
    refine (h.countRefused _).freeze ?_ id a b
    rw [Region.countRefused_state]
    rcases taking with e | e <;> simp [e]
  | written k takes _ _ room =>
    rw [Placed.takeIn_region]
    have on : (Region.discards p.mem k p.region).state ≠ .disabled := by
      rw [Region.discards_state]; exact takes.on
    exact (((h.but.discards takes.on p.mem k).withWords on (Region.lossPart_fits room)).afterWrite on ⟨rfl, rfl⟩ id
      rec.kind).judged id

/-! ### What an offer leaves of the placement and the counters -/

/-- A region keeps its blocks and stays off exactly while it was, and no counter of it falls. -/
structure Region.KeepsPlace (r t : Region) : Prop where
  base : t.base = r.base
  size : t.size = r.size
  disabled : t.state = .disabled ↔ r.state = .disabled
  counters : r.atMost t

theorem Region.atMost_refl (r : Region) : r.atMost r := ⟨le_refl _, le_refl _, le_refl _, le_refl _, le_refl _⟩

theorem Region.atMost_trans {a b c : Region} (h : a.atMost b) (g : b.atMost c) : a.atMost c := by
  obtain ⟨h1, h2, h3, h4, h5⟩ := h
  obtain ⟨g1, g2, g3, g4, g5⟩ := g
  exact ⟨h1.trans g1, h2.trans g2, h3.trans g3, h4.trans g4, h5.trans g5⟩

theorem Region.KeepsPlace.refl (r : Region) : r.KeepsPlace r := ⟨rfl, rfl, Iff.rfl, Region.atMost_refl r⟩

theorem Region.KeepsPlace.trans {a b c : Region} (h : a.KeepsPlace b) (g : b.KeepsPlace c) : a.KeepsPlace c :=
  ⟨g.base.trans h.base, g.size.trans h.size, g.disabled.trans h.disabled, Region.atMost_trans h.counters g.counters⟩

theorem le_satInc (max n : Nat) : n ≤ satInc max n := by
  unfold satInc
  split_ifs <;> omega

theorem le_satIncIf (c : Bool) (max n : Nat) : n ≤ satIncIf c max n := by
  unfold satIncIf
  split_ifs
  · exact le_satInc max n
  · exact le_refl _

theorem Region.KeepsPlace.discard (m : List Host.Cell) (r : Region) : r.KeepsPlace (r.discard m) :=
  ⟨rfl, rfl, Iff.rfl, le_refl _, le_satInc _ _, le_satIncIf _ _ _, le_refl _, le_refl _⟩

theorem Region.KeepsPlace.discards (m : List Host.Cell) (k : Nat) (r : Region) :
    r.KeepsPlace (Region.discards m k r) := by
  induction k with
  | zero => exact .refl r
  | succ k ih => rw [Region.discards_succ]; exact ih.trans (.discard m _)

theorem Region.KeepsPlace.withWords (r : Region) (n : Nat) : r.KeepsPlace (r.withWords n) := by
  refine ⟨rfl, rfl, Iff.rfl, ?_, le_refl _, le_refl _, le_refl _, le_refl _⟩
  show r.written ≤ r.writtenAfter
  unfold Region.writtenAfter
  split_ifs
  · exact (le_satInc _ _).trans (le_satInc _ _)
  · exact le_satInc _ _

theorem Region.KeepsPlace.judgeThreshold (id : RegionId) (r : Region) : r.KeepsPlace (r.judgeThreshold id).1 := by
  rw [Region.judgeThreshold_keeps]
  exact ⟨rfl, rfl, Iff.rfl, Region.atMost_refl r⟩

theorem Region.afterWrite_state (id : RegionId) (kind : RecKind) (r : Region) :
    (r.afterWrite id kind).1.state = r.state ∨ (r.afterWrite id kind).1.state = .frozen ∨
      (r.afterWrite id kind).1.state = .postfill := by
  cases kind with
  | trig | msg | brk => simp only [Region.afterWrite, Region.freeze]; split_ifs <;> simp
  | epoch | sync | meas | mark | loss => exact .inl rfl

theorem Region.KeepsPlace.afterWrite (id : RegionId) (kind : RecKind) {r : Region} (on : r.state ≠ .disabled) :
    r.KeepsPlace (r.afterWrite id kind).1 := by
  have state := Region.afterWrite_state id kind r
  rw [Region.afterWrite_keeps]
  refine ⟨rfl, rfl, ?_, Region.atMost_refl r⟩
  constructor
  · intro off
    rcases state with e | e | e
    · exact e.symm.trans off
    · exact absurd (e.symm.trans off) (by simp)
    · exact absurd (e.symm.trans off) (by simp)
  · exact fun off => absurd off on

theorem Region.KeepsPlace.countRefused (kind : RecKind) (r : Region) : r.KeepsPlace (r.countRefused kind) := by
  cases kind with
  | msg => exact ⟨rfl, rfl, Iff.rfl, le_refl _, le_refl _, le_refl _, le_satInc _ _, le_refl _⟩
  | brk | epoch | sync | meas | mark | trig | loss =>
    exact ⟨rfl, rfl, Iff.rfl, le_refl _, le_refl _, le_refl _, le_refl _, le_satInc _ _⟩

theorem Region.KeepsPlace.countPending (kind : RecKind) (r : Region) : r.KeepsPlace (r.countPending kind) := by
  cases kind <;> exact ⟨rfl, rfl, Iff.rfl, Region.atMost_refl r⟩

theorem Region.KeepsPlace.freeze {r : Region} (on : r.state ≠ .disabled) (id : RegionId) (a b : Bool) :
    r.KeepsPlace (r.freeze id a b).1 := ⟨rfl, rfl, by simp [Region.freeze, on], Region.atMost_refl r⟩

theorem Placed.offer_keepsPlace (id : RegionId) (p : Placed) (rec : Rec) :
    p.region.KeepsPlace (p.offer id rec).placed.region := by
  have ends := Placed.offer_ends id p rec
  generalize p.offer id rec = o at ends ⊢
  cases ends with
  | ignored => exact .refl _
  | resting => exact .countRefused _ _
  | noRoom => exact (Region.KeepsPlace.countRefused _ _).trans (.countPending _ _)
  | frozen a b taking =>
    refine (Region.KeepsPlace.countRefused rec.kind p.region).trans (.freeze ?_ id a b)
    rw [Region.countRefused_state]
    rcases taking with e | e <;> simp [e]
  | written k takes =>
    rw [Placed.takeIn_region]
    have on : (Region.discards p.mem k p.region).state ≠ .disabled := by
      rw [Region.discards_state]; exact takes.on
    exact (((Region.KeepsPlace.discards p.mem k p.region).trans (.withWords _ _)).trans
      (.afterWrite id rec.kind on)).trans (.judgeThreshold id _)

/-! ### What an offer leaves of the memory (R97) -/

theorem Placed.offer_wf (id : RegionId) {p : Placed} (rec : Rec) (w : Memory.wf p.mem = true) :
    Memory.wf (p.offer id rec).placed.mem = true := by
  have ends := Placed.offer_ends id p rec
  generalize p.offer id rec = o at ends ⊢
  cases ends with
  | ignored | resting | noRoom | frozen => exact w
  | written k => exact Placed.put_wf { p with region := Region.discards p.mem k p.region } w _

theorem Region.discards_tail (m : List Host.Cell) (k : Nat) (r : Region) : (Region.discards m k r).tail = r.tail := by
  rw [Region.discards_keeps]

/-- An offer that is written is written in the words from the tail on. -/
theorem Placed.takeIn_discards_mem (id : RegionId) {p : Placed} (rec : Rec) (k : Nat)
    (tail : p.region.tail < p.region.words) :
    (Placed.takeIn id { p with region := Region.discards p.mem k p.region } rec).placed.mem =
      p.region.writeWords p.mem p.region.tail (p.region.lossPart ++ rec.words) := by
  have keeps := Region.KeepsPlace.discards p.mem k p.region
  rw [Placed.takeIn_mem, Placed.put_mem, Region.discards_lossPart, Region.discards_tail,
    Region.writeWords_congr keeps.base keeps.size]
  show (Region.discards p.mem k p.region).tail < (Region.discards p.mem k p.region).words
  rw [Region.discards_tail, Region.words, keeps.size]
  exact tail

/-- A byte outside the words from the tail on keeps its value. -/
theorem Placed.readByte_offer (id : RegionId) {p : Placed} {rec : Rec} (w : Memory.wf p.mem = true)
    (sound : p.region.Sound) {a : Nat}
    (apart : p.region.state ≠ .disabled → ∀ k, k < p.region.roomNeeded rec →
      a / 4 ≠ p.region.wordAt (p.region.advance p.region.tail k)) :
    Memory.readByte (p.offer id rec).placed.mem a = Memory.readByte p.mem a := by
  have ends := Placed.offer_ends id p rec
  generalize p.offer id rec = o at ends ⊢
  cases ends with
  | ignored | resting | noRoom | frozen => rfl
  | written k takes =>
    have tail := (sound.but.placed takes.on).2.2.2.2
    rw [Placed.takeIn_discards_mem id rec k tail]
    refine Region.readByte_writeWords_outside _ _ w tail fun j hj => apart takes.on j ?_
    rwa [Region.roomNeeded_eq]

/-! ### Whole records stay whole (R101, R127) -/

theorem lossWords_sized (msgs other : Nat) : Sized (lossWords msgs other) :=
  ⟨by simp [lossWords], _, rfl,
    headerSize_headerWord .loss (by norm_num) (by norm_num) (by norm_num) (by norm_num) (by norm_num)⟩

/-- A written record of whole size leaves a ring of whole records. -/
theorem Region.Whole.write {p : Placed} (h : p.region.Whole p.mem) (w : Memory.wf p.mem = true)
    (placed : p.region.base + p.region.size ≤ 256) (head : p.region.head < p.region.words) {ws : List Word}
    (sized : Sized ws) (fits : p.region.used + ws.length ≤ p.region.words) :
    (p.write ws).region.Whole (p.write ws).mem := by
  obtain ⟨⟨read, unread, holds⟩, tail⟩ := (Region.whole_iff _ _).1 h
  exact (Region.whole_iff _ _).2
    ⟨⟨read, unread ++ [ws.length], holds.write tail w placed head sized fits⟩, Placed.write_tail tail ws⟩

theorem Region.Whole.congr {m : List Host.Cell} {r t : Region} (h : r.Whole m) (base : t.base = r.base)
    (size : t.size = r.size) (head : t.head = r.head) (cursor : t.cursor = r.cursor) (tail : t.tail = r.tail)
    (used : t.used = r.used) (unread : t.unread = r.unread) (count : t.count = r.count) : t.Whole m := by
  obtain ⟨⟨read, unreadSizes, holds⟩, atTail⟩ := (Region.whole_iff _ _).1 h
  refine (Region.whole_iff _ _).2 ⟨⟨read, unreadSizes, holds.congr base size head cursor used unread count⟩, ?_⟩
  rw [tail, head, used, atTail, Region.advance_congr size]

theorem Region.Whole.put {p : Placed} (h : p.region.Whole p.mem) (w : Memory.wf p.mem = true)
    (placed : p.region.base + p.region.size ≤ 256) (head : p.region.head < p.region.words) {ws : List Word}
    (sized : Sized ws) (fits : p.region.used + (p.region.lossPart.length + ws.length) ≤ p.region.words) :
    (p.put ws).region.Whole (p.put ws).mem := by
  cases pending : p.region.refusalsPending
  · rw [Placed.put, Placed.writeLoss_of_none pending]
    exact h.write w placed head sized (by omega)
  · have ahead : Sized p.region.lossPart := by rw [Region.lossPart_of_some pending]; exact lossWords_sized _ _
    have loss : (Placed.write { p with region := p.region.noPending } p.region.lossPart).region.Whole
        (Placed.write { p with region := p.region.noPending } p.region.lossPart).mem := by
      refine Region.Whole.write (p := { p with region := p.region.noPending }) ?_ w placed head ahead ?_
      · exact h.congr rfl rfl rfl rfl rfl rfl rfl rfl
      · show p.region.used + p.region.lossPart.length ≤ p.region.words
        omega
    rw [Placed.put, Placed.writeLoss_of_some pending]
    refine loss.write (Region.writeWords_wf _ _ w _) placed head sized ?_
    show p.region.used + p.region.lossPart.length + ws.length ≤ p.region.words
    omega

/-- Discarding whole records from the head leaves whole records. -/
theorem Region.Whole.discards {m : List Host.Cell} {r : Region} (h : r.Whole m) (head : r.head < r.words) {k : Nat}
    (held : k ≤ r.count) : (Region.discards m k r).Whole m := by
  obtain ⟨⟨read, unread, holds⟩, tail⟩ := (Region.whole_iff _ _).1 h
  have count : k ≤ (read ++ unread).length := by rw [← holds.count]; exact held
  have after := holds.discards count
  refine (Region.whole_iff _ _).2 ⟨⟨_, _, after⟩, ?_⟩
  have used := after.used
  rw [drop_append_drop] at used
  have split : ((read ++ unread).take k).sum + ((read ++ unread).drop k).sum = r.used := by
    rw [← List.sum_append, List.take_append_drop, holds.used]
  have keeps := Region.KeepsPlace.discards m k r
  rw [Region.advance_congr keeps.size, Region.discards_tail, tail, used, holds.discards_head head count,
    Region.advance_advance, split]

theorem Region.Whole.countRefused {m : List Host.Cell} {r : Region} (h : r.Whole m) (kind : RecKind) :
    (r.countRefused kind).Whole m := by
  cases kind <;> exact h.congr rfl rfl rfl rfl rfl rfl rfl rfl

theorem Region.Whole.countPending {m : List Host.Cell} {r : Region} (h : r.Whole m) (kind : RecKind) :
    (r.countPending kind).Whole m := by
  cases kind <;> exact h.congr rfl rfl rfl rfl rfl rfl rfl rfl

theorem Placed.offer_whole (id : RegionId) {p : Placed} {rec : Rec} (w : Memory.wf p.mem = true)
    (sound : p.region.Sound) (sized : Sized rec.words) (h : p.region.Whole p.mem) :
    (p.offer id rec).placed.region.Whole (p.offer id rec).placed.mem := by
  have ends := Placed.offer_ends id p rec
  generalize p.offer id rec = o at ends ⊢
  cases ends with
  | ignored => exact h
  | resting => exact h.countRefused _
  | noRoom => exact (h.countRefused _).countPending _
  | frozen => exact (h.countRefused rec.kind).congr rfl rfl rfl rfl rfl rfl rfl rfl
  | written k takes held _ room =>
    obtain ⟨-, placed, head, -, -⟩ := sound.but.placed takes.on
    have keeps := Region.KeepsPlace.discards p.mem k p.region
    have on : (Region.discards p.mem k p.region).state ≠ .disabled := by
      rw [Region.discards_state]; exact takes.on
    have but := sound.but.discards takes.on p.mem k
    have fits := Region.lossPart_fits room
    have used := but.used
    have after : ((Placed.mk p.mem (Region.discards p.mem k p.region)).put rec.words).region.Whole
        ((Placed.mk p.mem (Region.discards p.mem k p.region)).put rec.words).mem := by
      refine Region.Whole.put (p := ⟨p.mem, Region.discards p.mem k p.region⟩) (h.discards head held) w ?_
        (but.placed on).2.2.1 sized ?_
      · show (Region.discards p.mem k p.region).base + (Region.discards p.mem k p.region).size ≤ 256
        rw [keeps.base, keeps.size]; exact placed
      · show (Region.discards p.mem k p.region).used +
          ((Region.discards p.mem k p.region).lossPart.length + rec.words.length) ≤
            (Region.discards p.mem k p.region).words
        simp only [Region.free] at fits
        omega
    rw [Placed.put_region] at after
    rw [Placed.takeIn_mem, Placed.takeIn_region, Region.judgeThreshold_keeps, Region.afterWrite_keeps]
    exact after.congr rfl rfl rfl rfl rfl rfl rfl rfl

end Sys2Proof.Machine

/-! PROOFS. What a command can do, as a run of acts: each act replaces one part of the state and says of that part what
it keeps. Every invariant is then proved once, act by act. -/

namespace Sys2Proof.Machine

/-! ### What an act keeps of the part it replaces -/

/-- A line's settings are in range and its open message is within what a record can hold (R22, R23). -/
def Line.InRange (l : Line) : Prop :=
  l.cfg.InRange ∧ ∀ m, l.msg = some m → m.stored.length ≤ 256 ∧ m.status.length ≤ 8

/-- The assembler is CLOSED while the receiver is OFF or in SETTLE (R20). -/
def Line.Closed (l : Line) : Prop := l.rx.state = .off ∨ l.rx.state = .settle → l.msg = none

/-- What a line that replaces another keeps. -/
structure Line.Keeps (l n : Line) : Prop where
  receiver : l.rx.Sound → l.Closed → n.rx.Sound ∧ n.Closed
  unit : l.tx.Sound → n.tx.Sound
  range : l.InRange → n.InRange

/-- The sequencer's part of R74, R83 and R85. -/
def Sequencer.Sound (q : Sequencer) : Prop :=
  q.table.length ≤ 16 ∧ firstBreak q.table.length 0 q.table = none ∧
    (q.state = .armed →
      (∃ st, q.step? = some st ∧ q.occurrence < st.occurrences) ∧ ∀ r, q.link = some r → r.val < q.table.length)

structure Sequencer.Keeps (q n : Sequencer) : Prop where
  sound : q.Sound → n.Sound
  queue : q.queue.length ≤ 16 → n.queue.length ≤ 16

/-- The link's part of R169. -/
def Link.BusyBounded (k : Link) : Prop := k.busyCount ≤ 5 ∧ (k.busyCount = 5 → k.rx = .hunt)

structure Link.Keeps (k n : Link) : Prop where
  buffer : k.buffer.length ≤ 2 → n.buffer.length ≤ 2
  busy : k.BusyBounded → n.BusyBounded
  notices : (k.notices.map (·.kind)).Nodup → (n.notices.map (·.kind)).Nodup

structure Region.Keeps (m : List Host.Cell) (r n : Region) : Prop where
  base : n.base = r.base
  size : n.size = r.size
  disabled : n.state = .disabled ↔ r.state = .disabled
  sound : r.Sound → n.Sound
  whole : r.Sound → r.state ≠ .disabled → r.Whole m → n.Whole m

/-- No counter of the Statistics Unit's own groups is lower. -/
def Stats.atMost (a b : Stats) : Prop :=
  (∀ i : LineId, a.lines[i].atMost b.lines[i]) ∧ a.eventsTaken ≤ b.eventsTaken ∧ a.eventsLost ≤ b.eventsLost ∧
    a.link.atMost b.link

/-! ### Acts and runs -/

/-- What an act may do beyond its part: write records, place a region, let counters fall. -/
inductive ActKind where
  | plain
  | offer
  | place
  | clear
  deriving DecidableEq

/-- One act. -/
inductive Act : ActKind → State → State → Prop
  | lines {s : State} (v : Vector Line 4) : (∀ i : LineId, (s.line i).Keeps v[i]) → Act .plain s { s with lines := v }
  | aside {s : State} (tb : TimeBase) (pins : Vector InputPin 2) (timers : Vector TimerUnit 4)
      (canned : Vector (Option CannedMessage) 8) (free : Nat) :
      Act .plain s { s with tb := tb, pins := pins, timers := timers, canned := canned, free := free }
  | seq {s : State} (q : Sequencer) : s.seq.Keeps q → Act .plain s (s.setSeq q)
  | link {s : State} (k : Link) : s.link.Keeps k → Act .plain s (s.setLink k)
  | offer {s : State} (id : RegionId) (rec : Rec) : (LinesInRange s → Sized rec.words) →
      Act .offer s (s.offer id rec)
  | place {s : State} (id : RegionId) (r : Region) : (RegionsSound s → RegionsSound (s.setRegion id r)) →
      (∀ m, r.Whole m) → (s.region id).atMost r → Act .place s (s.setRegion id r)
  | region {kind : ActKind} {s : State} (id : RegionId) (r : Region) : kind = .plain ∨ kind = .clear →
      (s.region id).Keeps s.store.mem r → (kind = .plain → (s.region id).atMost r) → Act kind s (s.setRegion id r)
  | filters {kind : ActKind} {s : State} (v : Vector Filter 32) : kind = .plain ∨ kind = .clear →
      (kind = .plain → ∀ e : Fin 32, (s.filter e).hits ≤ v[e].hits) → Act kind s { s with filters := v }
  | stats {kind : ActKind} {s : State} (st : Stats) : kind = .plain ∨ kind = .clear →
      (∀ i : LineId, (s.lineStats i).Balanced → st.lines[i].Balanced) →
      (kind = .plain → s.stats.atMost st) → Act kind s (s.setStats st)

/-- A run of acts of the given kinds. -/
def Runs (p : ActKind → Prop) : State → State → Prop := Relation.ReflTransGen (fun s t => ∃ k, p k ∧ Act k s t)

/-- A run that writes no record, places no region and clears no counter. -/
abbrev Quiet : State → State → Prop := Runs (· = .plain)

/-- A run that may write records. -/
abbrev Moves : State → State → Prop := Runs (fun k => k = .plain ∨ k = .offer)

theorem Runs.refl {p : ActKind → Prop} (s : State) : Runs p s s := Relation.ReflTransGen.refl

theorem Runs.trans {p : ActKind → Prop} {s t u : State} (h : Runs p s t) (g : Runs p t u) : Runs p s u :=
  Relation.ReflTransGen.trans h g

theorem Runs.act {p : ActKind → Prop} {k : ActKind} {s t : State} (allowed : p k) (h : Act k s t) : Runs p s t :=
  Relation.ReflTransGen.single ⟨k, allowed, h⟩

theorem Runs.mono {p q : ActKind → Prop} (h : ∀ k, p k → q k) {s t : State} (runs : Runs p s t) : Runs q s t :=
  Relation.ReflTransGen.mono (fun _ _ ⟨k, allowed, a⟩ => ⟨k, h k allowed, a⟩) _ _ runs

theorem Quiet.trans {s t u : State} (h : Quiet s t) (g : Quiet t u) : Quiet s u := Runs.trans h g

theorem Moves.trans {s t u : State} (h : Moves s t) (g : Moves t u) : Moves s u := Runs.trans h g

theorem Quiet.moves {s t : State} (h : Quiet s t) : Moves s t := h.mono fun _ => .inl

/-- What every act keeps, a run keeps. -/
theorem Runs.keeps {p : ActKind → Prop} {Inv : State → Prop} {s t : State} (runs : Runs p s t)
    (act : ∀ k a b, p k → Act k a b → Inv a → Inv b) (h : Inv s) : Inv t := by
  induction runs with
  | refl => exact h
  | tail _ step ih =>
    obtain ⟨k, allowed, a⟩ := step
    exact act k _ _ allowed a ih

theorem Quiet.of_act {s t : State} (h : Act .plain s t) : Quiet s t := .act rfl h

theorem Moves.of_offer {s : State} (id : RegionId) {rec : Rec} (sized : LinesInRange s → Sized rec.words) :
    Moves s (s.offer id rec) := .act (.inr rfl) (.offer id rec sized)

/-! ### Lines -/

theorem Line.Keeps.refl (l : Line) : l.Keeps l := ⟨fun h g => ⟨h, g⟩, id, id⟩

/-- One line is replaced. -/
theorem Quiet.setLine (s : State) (i : LineId) {l : Line} (h : (s.line i).Keeps l) : Quiet s (s.setLine i l) := by
  refine .of_act (.lines _ fun j => ?_)
  by_cases e : i = j
  · subst e; simpa using h
  · have e' : i.val ≠ j.val := fun v => e (Fin.ext v)
    simpa [e', State.line] using Line.Keeps.refl (s.line j)

theorem Quiet.setTx (s : State) (i : LineId) {u : TxUnit} (h : (s.line i).tx.Sound → u.Sound) :
    Quiet s (s.setTx i u) := .setLine s i ⟨fun r c => ⟨r, c⟩, h, id⟩

/-- A receiver in OFF or SETTLE is entered only with the assembler CLOSED. -/
theorem Quiet.setRx (s : State) (i : LineId) {r : Receiver}
    (h : (s.line i).rx.Sound → (s.line i).Closed → r.Sound ∧ (r.state = .off ∨ r.state = .settle → (s.line i).msg = none)) :
    Quiet s (s.setRx i r) := .setLine s i ⟨h, id, id⟩

theorem Quiet.closeMsg (s : State) (i : LineId) : Quiet s (s.setMsg i none) :=
  .setLine s i ⟨fun r _ => ⟨r, fun _ => rfl⟩, id, fun h => ⟨h.1, fun _ e => by cases e⟩⟩

/-- An open message replaces an open one, or opens while the receiver runs. -/
theorem Quiet.setMsg (s : State) (i : LineId) {m : Message}
    (opened : (s.line i).msg = none → (s.line i).rx.state ≠ .off ∧ (s.line i).rx.state ≠ .settle)
    (bound : (s.line i).InRange → m.stored.length ≤ 256 ∧ m.status.length ≤ 8) :
    Quiet s (s.setMsg i (some m)) := by
  refine .setLine s i ⟨fun r c => ⟨r, fun off => ?_⟩, id, fun h => ⟨h.1, fun n e => ?_⟩⟩
  · obtain ⟨running, settled⟩ := opened (c off)
    exact (off.elim running settled).elim
  · obtain rfl : m = n := Option.some.inj e
    exact bound h

/-! ### The parts no invariant speaks of -/

theorem Quiet.setTimer (s : State) (u : UnitId) (t : TimerUnit) : Quiet s (s.setTimer u t) :=
  .of_act (.aside s.tb s.pins (s.timers.set u t) s.canned s.free)

theorem Quiet.setPin (s : State) (i : PinId) (p : InputPin) : Quiet s (s.setPin i p) :=
  .of_act (.aside s.tb (s.pins.set i p) s.timers s.canned s.free)

theorem Quiet.setTb (s : State) (tb : TimeBase) : Quiet s (s.setTb tb) :=
  .of_act (.aside tb s.pins s.timers s.canned s.free)

theorem Quiet.useFree (s : State) : Quiet s s.useFree :=
  .of_act (.aside s.tb s.pins s.timers s.canned (s.free + 1))

theorem Quiet.setCanned (s : State) (c : Fin 8) (m : Option CannedMessage) :
    Quiet s { s with canned := s.canned.set c m } :=
  .of_act (.aside s.tb s.pins s.timers (s.canned.set c m) s.free)

/-! ### Counters -/

theorem LineStats.atMost_refl (g : LineStats) : g.atMost g := by simp [LineStats.atMost]

theorem LineStats.atMost_trans {a b c : LineStats} (h : a.atMost b) (g : b.atMost c) : a.atMost c := by
  simp only [LineStats.atMost] at *
  refine ⟨?_, ?_, ?_, ?_, ?_, ?_, ?_, ?_, ?_, ?_, ?_, fun k => (h.2.2.2.2.2.2.2.2.2.2.2.1 k).trans
    (g.2.2.2.2.2.2.2.2.2.2.2.1 k), ?_, ?_, ?_, ?_, ?_⟩ <;> omega

theorem LinkStats.atMost_refl (g : LinkStats) : g.atMost g := by simp [LinkStats.atMost]

theorem LinkStats.atMost_trans {a b c : LinkStats} (h : a.atMost b) (g : b.atMost c) : a.atMost c := by
  simp only [LinkStats.atMost] at *
  omega

/-- One LINE group moves up and stays balanced. -/
theorem Quiet.report (s : State) (i : LineId) {f : LineStats → LineStats}
    (rises : (s.lineStats i).atMost (f (s.lineStats i)))
    (balanced : (s.lineStats i).Balanced → (f (s.lineStats i)).Balanced) : Quiet s (s.report i f) := by
  refine .of_act (.stats _ (.inl rfl) (fun j h => ?_) fun _ => ⟨fun j => ?_, le_refl _, le_refl _, LinkStats.atMost_refl _⟩)
  · by_cases e : i = j
    · subst e; simpa using balanced h
    · have e' : i.val ≠ j.val := fun v => e (Fin.ext v)
      simpa [e', State.lineStats] using h
  · by_cases e : i = j
    · subst e; simpa [State.lineStats] using rises
    · have e' : i.val ≠ j.val := fun v => e (Fin.ext v)
      simpa [e'] using LineStats.atMost_refl s.stats.lines[j]

/-- The counts outside the LINE groups move up. -/
theorem Quiet.setStats (s : State) {st : Stats} (lines : st.lines = s.stats.lines)
    (rises : s.stats.eventsTaken ≤ st.eventsTaken ∧ s.stats.eventsLost ≤ st.eventsLost ∧
      s.stats.link.atMost st.link) : Quiet s (s.setStats st) :=
  .of_act (.stats st (.inl rfl) (fun i h => by rw [lines]; exact h)
    fun _ => ⟨fun i => by rw [lines]; exact LineStats.atMost_refl _, rises⟩)

theorem Quiet.reportLink (s : State) {f : LinkStats → LinkStats} (rises : s.stats.link.atMost (f s.stats.link)) :
    Quiet s (s.reportLink f) := .setStats s rfl ⟨le_refl _, le_refl _, rises⟩

theorem Quiet.countTaken (s : State) : Quiet s s.countTaken :=
  .setStats s rfl ⟨le_satInc _ _, le_refl _, LinkStats.atMost_refl _⟩

/-- A report that leaves the four message counters keeps their balance. -/
theorem LineStats.Balanced.congr {a b : LineStats} (h : a.Balanced) (messages : b.messages = a.messages)
    (recorded : b.recorded = a.recorded) (filtered : b.filtered = a.filtered) (lost : b.lost = a.lost) :
    b.Balanced := by
  simp only [LineStats.Balanced, messages, recorded, filtered, lost]
  exact h

theorem LineStats.completion_balanced {g : LineStats} (h : g.Balanced) (o : MsgOutcome) (received : Nat)
    (trunc : Bool) : (g.completion o received trunc).Balanced := by
  simp only [LineStats.Balanced] at h
  simp only [LineStats.Balanced, LineStats.completion, inc32, inc32If, satIncIf, satInc]
  cases o <;> simp only [reduceCtorEq, beq_self_eq_true, beq_iff_eq, if_true, if_false] <;> intros <;>
    split_ifs at * <;> omega

theorem LineStats.completion_atMost (g : LineStats) (o : MsgOutcome) (received : Nat) (trunc : Bool) :
    g.atMost (g.completion o received trunc) := by
  refine ⟨le_refl _, le_satInc _ _, le_satIncIf _ _ _, le_satIncIf _ _ _, le_satIncIf _ _ _, le_satIncIf _ _ _,
    le_refl _, le_refl _, le_refl _, le_refl _, le_refl _, fun k => ?_, le_refl _, le_refl _, le_refl _, le_refl _,
    le_refl _⟩
  by_cases e : sizeBucket received = k
  · subst e; simpa [LineStats.completion, inc32] using le_satInc _ _
  · have e' : (sizeBucket received).val ≠ k.val := fun v => e (Fin.ext v)
    simp [LineStats.completion, e']

theorem Quiet.reportCompletion (s : State) (i : LineId) (o : MsgOutcome) (received : Nat) (trunc : Bool) :
    Quiet s (s.report i fun g => g.completion o received trunc) :=
  .report s i (LineStats.completion_atMost _ o received trunc) fun h => LineStats.completion_balanced h _ _ _

theorem Quiet.reportCharacter (s : State) (i : LineId) (ch : Character) :
    Quiet s (s.report i fun g => g.character ch) := by
  refine .report s i ?_ fun h => h.congr rfl rfl rfl rfl
  simp [LineStats.atMost, LineStats.character, le_satInc, inc32If, le_satIncIf]

theorem Quiet.reportFalseStart (s : State) (i : LineId) : Quiet s (s.report i LineStats.falseStart) := by
  refine .report s i ?_ fun h => h.congr rfl rfl rfl rfl
  simp [LineStats.atMost, LineStats.falseStart, inc32, le_satInc]

theorem Quiet.reportBreak (s : State) (i : LineId) : Quiet s (s.report i LineStats.breakSeen) := by
  refine .report s i ?_ fun h => h.congr rfl rfl rfl rfl
  simp [LineStats.atMost, LineStats.breakSeen, inc32, le_satInc]

theorem Quiet.reportDeferral (s : State) (i : LineId) : Quiet s (s.report i LineStats.deferral) := by
  refine .report s i ?_ fun h => h.congr rfl rfl rfl rfl
  simp [LineStats.atMost, LineStats.deferral, inc32, le_satInc]

theorem Quiet.reportDropped (s : State) (i : LineId) : Quiet s (s.report i LineStats.sendDropped) := by
  refine .report s i ?_ fun h => h.congr rfl rfl rfl rfl
  simp [LineStats.atMost, LineStats.sendDropped, inc32, le_satInc]

theorem Quiet.reportOutcome (s : State) (i : LineId) (o : TxOutcome) :
    Quiet s (s.report i fun g => g.txOutcome o) := by
  cases o <;> refine .report s i ?_ fun h => h.congr rfl rfl rfl rfl
  all_goals simp [LineStats.atMost, LineStats.txOutcome, inc32, le_satInc]

/-! ### The host link -/

theorem Link.Keeps.refl (k : Link) : k.Keeps k := ⟨id, id, id⟩

theorem Link.Keeps.trans {a b c : Link} (h : a.Keeps b) (g : b.Keeps c) : a.Keeps c :=
  ⟨g.buffer ∘ h.buffer, g.busy ∘ h.busy, g.notices ∘ h.notices⟩

theorem Quiet.setLink (s : State) {k : Link} (h : s.link.Keeps k) : Quiet s (s.setLink k) := .of_act (.link k h)

theorem Link.busyCount_tail_le (k : Link) {r : Reply} {rest : List Reply} (h : k.replies = r :: rest) :
    ({ k with wire := some (.reply r), replies := rest } : Link).busyCount ≤ k.busyCount := by
  simp only [Link.busyCount, h, List.filter_cons]
  split_ifs <;> simp

/-- Choosing a frame takes a reply or a notice from the front. -/
theorem Link.Keeps.choose (k : Link) : k.Keeps k.choose := by
  unfold Link.choose
  split
  · exact .refl k
  · split
    · next r rest e =>
      refine ⟨id, fun h => ?_, id⟩
      have less := Link.busyCount_tail_le k e
      exact ⟨less.trans h.1, fun five => h.2 (le_antisymm h.1 (five ▸ less))⟩
    · split
      · next n rest e =>
        refine ⟨id, id, fun h => ?_⟩
        rw [e] at h
        exact (List.nodup_cons.1 h).2
      · exact .refl k

theorem placeNotice_kinds (n : Notice) (ns : List Notice) :
    (placeNotice n ns).map (·.kind) =
      if n.kind ∈ ns.map (·.kind) then ns.map (·.kind) else ns.map (·.kind) ++ [n.kind] := by
  induction ns with
  | nil => rfl
  | cons m t ih =>
    by_cases e : m.kind = n.kind
    · simp [placeNotice, e]
    · have e' : n.kind ≠ m.kind := fun h => e h.symm
      by_cases inside : n.kind ∈ t.map (·.kind)
      · have inside' := inside
        simp only [List.mem_map] at inside'
        simp [placeNotice, e, ih, e', inside']
      · have inside' := inside
        simp only [List.mem_map] at inside'
        simp [placeNotice, e, ih, e', inside']

theorem Link.Keeps.raise (k : Link) (n : Notice) : k.Keeps (k.raise n) := by
  unfold Link.raise
  split_ifs
  · refine Link.Keeps.trans (b := { k with notices := placeNotice n k.notices }) ⟨id, id, fun h => ?_⟩ (.choose _)
    show ((placeNotice n k.notices).map (·.kind)).Nodup
    rw [placeNotice_kinds]
    split_ifs with inside
    · exact h
    · exact List.Nodup.append h (List.nodup_singleton _) (by simpa using inside)
  · exact .refl k

theorem Quiet.raise (s : State) (n : Notice) : Quiet s (s.raise n) := .setLink s (.raise s.link n)

theorem Link.Keeps.raiseAll (ns : List Notice) (k : Link) : k.Keeps (k.raiseAll ns) := by
  induction ns generalizing k with
  | nil => exact .refl k
  | cons n t ih => exact (Link.Keeps.raise k n).trans (ih _)

/-- A reply that is not BUSY joins the list. -/
theorem Link.Keeps.addReply (k : Link) {r : Reply} (notBusy : r.origin ≠ .busy) : k.Keeps (k.addReply r) := by
  refine Link.Keeps.trans (b := { k with replies := k.replies ++ [r] }) ⟨id, fun h => ?_, id⟩ (.choose _)
  have same : ({ k with replies := k.replies ++ [r] } : Link).busyCount = k.busyCount := by
    simp [Link.busyCount, List.filter_append, notBusy]
  rw [Link.BusyBounded, same]
  exact h

/-- A BUSY reply joins the list while the frame receiver hunts and fewer than five wait. -/
theorem Link.busyBounded_addReply {k : Link} {r : Reply} (few : k.busyCount ≤ 4) (hunts : k.rx = .hunt) :
    (k.addReply r).BusyBounded := by
  refine (Link.Keeps.choose _).busy ⟨?_, fun _ => hunts⟩
  simp only [Link.busyCount, List.filter_append, List.length_append] at few ⊢
  have one : (List.filter (fun r => r.origin == .busy) [r]).length ≤ 1 := List.length_filter_le _ _
  omega

theorem takeBack_nodup (n : Notice) {ns : List Notice} (h : (ns.map (·.kind)).Nodup) :
    ((takeBack n ns).map (·.kind)).Nodup := by
  have front : ((ns.find? (fun m => m.kind == n.kind)).getD n).kind = n.kind := by
    cases e : ns.find? (fun m => m.kind == n.kind) with
    | none => rfl
    | some m => simpa using List.find?_some e
  rw [takeBack, List.map_cons, front, List.nodup_cons]
  constructor
  · simp
  · exact h.sublist (List.filter_sublist.map _)

/-- The handler's reply joins the list or goes ahead of the notice just raised (R171). -/
theorem Quiet.placeReply (before after : State) {r : Reply} (notBusy : r.origin ≠ .busy) :
    Quiet after (placeReply before after r) := by
  have joins : ∀ s : State, Quiet s (s.setLink (s.link.addReply r)) := fun s => .setLink s (.addReply _ notBusy)
  unfold Machine.placeReply
  split
  · next n _ _ =>
    split_ifs
    · exact (Quiet.useFree after).trans (Quiet.setLink _ ⟨id, id, takeBack_nodup n⟩)
    · exact (Quiet.useFree after).trans (joins after.useFree)
  · exact joins after

/-- A request is put in handling: it stands in the buffer, alone with its frame counted when it has just arrived. -/
theorem Quiet.taken (s : State) (req : Request) : Quiet s (taken s req) := by
  unfold Machine.taken
  split
  · next e =>
    have link : Quiet s (s.setLink
        { s.link with bytes := ByteReceiver.ready, buffer := [{ request := req, inHandling := true }] }) :=
      .setLink s ⟨fun _ => by simp, id, id⟩
    refine link.trans (Quiet.reportLink _
      (f := fun g => { g with framesOk := satInc Config.count32Max g.framesOk }) ?_)
    simp [LinkStats.atMost, le_satInc]
  · next b rest e => exact .setLink s ⟨fun h => by rw [e] at h; simpa using h, id, id⟩

/-- Serving a request is a run of its owning block's kinds. -/
theorem Runs.serve {p : ActKind → Prop} (plain : p .plain) (s : State) (req : Request) (fits : Nat → Bool)
    {act : State → List Byte → Answer}
    (h : ∀ s1, fits req.payload.length = true → Runs p s1 (act s1 req.payload).state) :
    Runs p s (serve s req fits act) := by
  have lift : ∀ {a b : State}, Quiet a b → Runs p a b := fun q => q.mono fun _ e => e ▸ plain
  cases can : canTake s req with
  | false => rw [serve_not_taken fits act can]; exact .refl s
  | true =>
    rw [serve_taken fits act can]
    have judged : Runs p (Machine.taken s req) (judgeRequest (Machine.taken s req) req fits act).state := by
      unfold judgeRequest
      split_ifs with zero admitted
      · exact .refl _
      · exact h _ admitted
      · exact .refl _
    refine ((lift (Quiet.taken s req)).trans judged).trans (lift (Quiet.placeReply _ _ ?_))
    dsimp only
    split_ifs <;> simp

end Sys2Proof.Machine

/-! PROOFS. The time base, the event inputs, the timer units and the trigger sequencer as runs of acts. -/

namespace Sys2Proof.Machine

/-! ### Records of fixed length -/

theorem sized_of_header (kind : RecKind) {source flags : Nat} {rest : List Word} (hs : source < 4) (hf : flags < 4096)
    (hr : rest ≠ []) (hl : rest.length < 255) :
    Sized (headerWord kind source 0 (rest.length + 1) flags 0 :: rest) := by
  have some : 0 < rest.length := List.length_pos_of_ne_nil hr
  exact ⟨by simp only [List.length_cons]; omega, _, rfl,
    headerSize_headerWord kind hs (by norm_num) (by omega) hf (by norm_num)⟩

theorem measRecord_sized (u : UnitId) (count : Nat) (time : Word) (tag : Byte) :
    Sized (measRecord u count time tag).words := sized_of_header .meas (rest := [_, _]) u.isLt (by norm_num) (by simp) (by simp)

theorem markRecord_sized (step : Fin 16) (v : Byte) (time : Word) (tag : Byte) :
    Sized (markRecord step v time tag).words := sized_of_header .mark (rest := [_, _]) (by norm_num) (by norm_num) (by simp) (by simp)

theorem trigRecord_sized (f : FireRecord) : Sized (trigRecord f).words :=
  sized_of_header .trig (rest := [_, _]) (by norm_num) (by norm_num) (by simp) (by simp)

theorem syncRecord_sized (p : PinId) (e : Edge) (time : Word) (tag : Byte) :
    Sized (syncRecord p e time tag).words :=
  sized_of_header .sync (rest := [_, _]) (p.isLt.trans (by norm_num)) (by norm_num) (by simp) (by simp)

theorem epochRecord_sized (epoch : BitVec 16) (pin : Option PinId) : Sized (epochRecord epoch pin).words :=
  sized_of_header .epoch (rest := [_]) (by norm_num) (by norm_num) (by simp) (by simp)

theorem brkRecord_sized (i : LineId) (b : BreakInfo) : Sized (brkRecord i b).words := by
  have flags : wordBit b.cut 0 + wordBit b.echo 5 < 4096 := by
    rw [wordBit_eq, wordBit_eq]
    have := Bool.toNat_le b.cut
    have := Bool.toNat_le b.echo
    omega
  exact sized_of_header .brk (rest := [_, _]) i.isLt flags (by simp) (by simp)

/-! ### Offers to a set of regions (R40) -/

theorem Store.offerSet_eq_foldl (s : State) (st : Store) (k : Link) (m : QuadSet) (rec : Rec) (l : List RegionId) :
    { s with store := (st.offerSet k m rec l).1, link := (st.offerSet k m rec l).2 } =
      (l.filter (fun id => m.getLsbD id.val)).foldl (fun t id => t.offer id rec) { s with store := st, link := k } := by
  induction l generalizing st k with
  | nil => rfl
  | cons id rest ih =>
    rw [Store.offerSet, List.filter_cons, QuadSet.has]
    split_ifs with member
    · rw [List.foldl_cons]; exact ih _ _
    · exact ih _ _

/-- An offer to a set is one offer after another, in ascending order (log 12). -/
theorem State.offerSet_eq_foldl (s : State) (m : QuadSet) (rec : Rec) :
    s.offerSet m rec =
      (([0, 1, 2, 3] : List RegionId).filter (fun id => m.getLsbD id.val)).foldl (fun t id => t.offer id rec) s :=
  Store.offerSet_eq_foldl s s.store s.link m rec quadList

theorem Moves.offerSet (s : State) (m : QuadSet) {rec : Rec} (sized : Sized rec.words) :
    Moves s (s.offerSet m rec) := by
  rw [State.offerSet_eq_foldl]
  generalize ([0, 1, 2, 3] : List RegionId).filter (fun id => m.getLsbD id.val) = l
  induction l generalizing s with
  | nil => exact .refl s
  | cons id rest ih => exact (Moves.of_offer id fun _ => sized).trans (ih _)

/-! ### The sequencer's state -/

theorem Quiet.setSeq (s : State) {q : Sequencer} (h : s.seq.Keeps q) : Quiet s (s.setSeq q) := .of_act (.seq q h)

/-- Soundness reads the table, the state, the current step with its count, and the link slot. -/
theorem Sequencer.Keeps.of_same {q n : Sequencer} (table : n.table = q.table) (state : n.state = q.state)
    (current : n.current = q.current) (occurrence : n.occurrence = q.occurrence) (link : n.link = q.link)
    (queue : q.queue.length ≤ 16 → n.queue.length ≤ 16) : q.Keeps n := by
  refine ⟨fun h => ?_, queue⟩
  simp only [Sequencer.Sound, Sequencer.step?, table, state, current, occurrence, link]
  exact h

/-- A valid table outside ARMED is sound. -/
theorem Sequencer.Keeps.of_resting {q n : Sequencer} (table : n.table = q.table) (resting : n.state ≠ .armed)
    (queue : q.queue.length ≤ 16 → n.queue.length ≤ 16) : q.Keeps n :=
  ⟨fun ⟨size, valid, _⟩ => ⟨table ▸ size, by rw [table]; exact valid, fun armed => absurd armed resting⟩, queue⟩

/-- No loaded step breaks a rule. -/
theorem breaksRule_of_firstBreak_none {loaded : Nat} {l : List StepRecord} {base : Nat}
    (h : firstBreak loaded base l = none) {k : Nat} {st : StepRecord} (hk : l[k]? = some st) :
    st.breaksRule loaded (base + k) = false := by
  induction l generalizing base k with
  | nil => simp at hk
  | cons x rest ih =>
    rw [firstBreak] at h
    split_ifs at h with broken
    cases k with
    | zero =>
      obtain rfl : x = st := by simpa using hk
      simpa using broken
    | succ k =>
      have tail := ih h (k := k) (by simpa using hk)
      rwa [show base + (k + 1) = base + 1 + k by omega]

/-- What the rules of R74 say of a loaded step. -/
theorem Sequencer.Sound.rules {q : Sequencer} (h : q.Sound) {k : Nat} {st : StepRecord} (hk : q.table[k]? = some st) :
    st.occurrences ≠ 0 ∧ st.matchTarget.beyond q.table.length = false ∧
      (∀ u t, st.guard = some u → st.elseTarget = some t → t.beyond q.table.length = false) ∧
      (st.matchKind = .call → k + 1 ≠ q.table.length) := by
  have rule := breaksRule_of_firstBreak_none h.2.1 hk
  simp only [StepRecord.breaksRule, Bool.or_eq_false_iff, Nat.zero_add] at rule
  obtain ⟨⟨⟨⟨⟨⟨-, occurrences⟩, target⟩, orElse⟩, call⟩, -⟩, -⟩ := rule
  refine ⟨by simpa using occurrences, target, fun u t guard exit => ?_, fun kind => by simpa [kind] using call⟩
  rw [guard, exit] at orElse
  exact orElse

/-! ### Timer units, guards and the event queue -/

theorem Quiet.startTimer (s : State) (u : UnitId) : Quiet s (s.startTimer u) := .setTimer s u _

theorem Quiet.stopTimer (s : State) (u : UnitId) : Quiet s (s.stopTimer u) := .setTimer s u _

theorem Quiet.stopGuard (s : State) (st : Option StepRecord) : Quiet s (s.stopGuard st) := by
  unfold State.stopGuard
  split
  · exact .refl s
  · exact .setTimer s _ _

theorem Moves.captureTimer (s : State) (u : UnitId) : Moves s (s.captureTimer u) :=
  (Quiet.setTimer s u _).moves.trans (.offerSet _ _ (measRecord_sized _ _ _ _))

theorem Quiet.seqFault (s : State) (cause : SeqFaultCause) : Quiet s (s.seqFault cause) :=
  (Quiet.setSeq s (q := { s.seq with state := .fault, cause := cause }) (.of_resting rfl nofun id)).trans
    (.raise _ _)

theorem Quiet.joinQueue (s : State) (e : SeqEvent) : Quiet s (s.joinQueue e) := by
  unfold State.joinQueue
  have lost : Quiet s (s.setStats { s.stats with eventsLost := satInc Config.count32Max s.stats.eventsLost }) :=
    .setStats s rfl ⟨le_refl _, le_satInc _ _, LinkStats.atMost_refl _⟩
  split_ifs with place
  · refine .setSeq s (.of_same rfl rfl rfl rfl rfl fun _ => ?_)
    have room : s.seq.queue.length < 16 := place
    simp only [List.length_append, List.length_singleton]
    omega
  · exact (lost.trans (.stopGuard _ _)).trans (.seqFault _ _)
  · exact lost

theorem Quiet.joinAll (s : State) (es : List SeqEvent) : Quiet s (s.joinAll es) := by
  induction es generalizing s with
  | nil => exact .refl s
  | cons e t ih => exact (Quiet.joinQueue s e).trans (ih _)

/-! ### Step entry and exits (R77, R84 to R86) -/

/-- The sequencer with a step entered under a guard generation. -/
def Sequencer.entered (q : Sequencer) (i : Fin 16) (gen : Byte) : Sequencer :=
  { q with current := i, occurrence := 0, guardGen := gen }

/-- Step entry moves the current step, its count and the guard's generation, and starts at most the guard. -/
theorem State.enterStep_keeps (s : State) (i : Fin 16) :
    ∃ timers gen, s.enterStep i = { s with timers := timers, seq := s.seq.entered i gen } := by
  cases h : s.seq.table[i.val]?.bind (·.guard) with
  | none => exact ⟨s.timers, s.seq.guardGen, State.enterStep_of_none h⟩
  | some u => exact ⟨_, _, State.enterStep_of_some h⟩

/-- A loaded step with no occurrence counted, under a link slot that names a loaded step, is sound. -/
theorem Sequencer.Sound.enter {q n : Sequencer} (h : q.Sound) (table : n.table = q.table)
    (occurrence : n.occurrence = 0)
    (entered : n.state = .armed → n.current.val < q.table.length ∧ ∀ r, n.link = some r → r.val < q.table.length) :
    n.Sound := by
  refine ⟨table ▸ h.1, by rw [table]; exact h.2.1, fun armed => ?_⟩
  obtain ⟨inside, link⟩ := entered armed
  have loaded : q.table[n.current.val]? = some q.table[n.current.val] := List.getElem?_eq_getElem inside
  refine ⟨⟨_, by rw [Sequencer.step?, table]; exact loaded, ?_⟩, by rw [table]; exact link⟩
  rw [occurrence]
  exact Nat.pos_of_ne_zero (h.rules loaded).1

/-- A step is entered from a state whose count has run out and whose link slot has been set. -/
theorem Quiet.enterStep (s : State) (n : Nat) (link : Option (Fin 16)) (i : Fin 16)
    (h : s.seq.Sound → s.seq.state = .armed →
      i.val < s.seq.table.length ∧ ∀ r, link = some r → r.val < s.seq.table.length) :
    Quiet s ((s.setSeq { s.seq with occurrence := n, link := link }).enterStep i) := by
  obtain ⟨timers, gen, e⟩ := (s.setSeq { s.seq with occurrence := n, link := link }).enterStep_keeps i
  rw [e]
  have unit : Quiet s { s with timers := timers } := .of_act (.aside s.tb s.pins timers s.canned s.free)
  exact unit.trans (.setSeq { s with timers := timers }
    ⟨fun sound => sound.enter rfl rfl (h sound), id⟩)

theorem Moves.fire (s : State) (q : Sequencer) (table : q.table = s.seq.table)
    (queue : s.seq.queue.length ≤ 16 → q.queue.length ≤ 16) (cause : FireCause) :
    Moves s ((s.setSeq q).fire cause) := by
  have fired : Quiet s (s.setSeq { q with state := .fired, lastFire := some ((s.setSeq q).fireRecord cause) }) :=
    .setSeq s (.of_resting table nofun queue)
  have recorded := fired.moves.trans (.offerSet _ q.trigMask (trigRecord_sized ((s.setSeq q).fireRecord cause)))
  have shown := recorded.trans (Quiet.setSeq _ (q := { q with
    state := .fired, lastFire := some ((s.setSeq q).fireRecord cause), out := q.out.fire })
    (.of_same rfl rfl rfl rfl rfl id)).moves
  exact shown.trans (Quiet.raise _ _).moves

/-- An exit from a step whose count has run out, with the link slot as a CALL has set it (R84). -/
theorem Moves.goTarget (s : State) (n : Nat) (link : Option (Fin 16)) (t : ExitTarget) (cause : FireCause)
    (h : s.seq.Sound → s.seq.state = .armed →
      t.beyond s.seq.table.length = false ∧ ∀ r, link = some r → r.val < s.seq.table.length) :
    Moves s ((s.setSeq { s.seq with occurrence := n, link := link }).goTarget t cause) := by
  cases t with
  | step i =>
    refine (Quiet.enterStep s n link i fun sound armed => ?_).moves
    obtain ⟨inside, links⟩ := h sound armed
    exact ⟨by simpa [ExitTarget.beyond] using inside, links⟩
  | ret =>
    cases link with
    | some r => exact (Quiet.enterStep s n none r fun sound armed => ⟨(h sound armed).2 r rfl, by simp⟩).moves
    | none =>
      have faulted : Quiet s (s.setSeq
          { s.seq with occurrence := n, link := none, state := .fault, cause := .emptyReturn }) :=
        .setSeq s (.of_resting rfl nofun id)
      exact (faulted.trans (.raise _ _)).moves
  | fire => exact .fire s { s.seq with occurrence := n, link := link } rfl id cause

/-- Setting the sequencer's state and stopping a guard do not meet. -/
theorem State.stopGuard_setSeq (s : State) (q : Sequencer) (st : Option StepRecord) :
    (s.setSeq q).stopGuard st = (s.stopGuard st).setSeq q := by
  cases h : st.bind (·.guard) with
  | none => rw [State.stopGuard_of_none h, State.stopGuard_of_none h]
  | some u => rw [State.stopGuard_of_some h, State.stopGuard_of_some h]; rfl

/-- The step after the current one, when a CALL may name it (R74, R84). -/
theorem succ_lt_of_call {q : Sequencer} (sound : q.Sound) {st : StepRecord} (here : q.step? = some st)
    (call : st.matchKind = .call) : (q.current + 1).val < q.table.length := by
  have inside : q.current.val < q.table.length := (List.getElem?_eq_some_iff.1 here).1
  have notLast := (sound.rules here).2.2.2 call
  have size := sound.1
  rw [Fin.val_add, show (1 : Fin 16).val = 1 from rfl]
  omega

/-- The match exit of the current step, once its count has run out. -/
theorem Moves.matchExit (s : State) (n : Nat) {st : StepRecord} (here : s.seq.step? = some st) :
    Moves s ((s.setSeq { s.seq with occurrence := n }).matchExit st) := by
  refine (Quiet.stopGuard s (some st)).moves.trans ?_
  have keeps : (s.stopGuard (some st)).seq = s.seq := s.stopGuard_seq _
  generalize hs : s.stopGuard (some st) = x at keeps ⊢
  have exit : ∀ link, (∀ r, link = some r → s.seq.Sound → s.seq.state = .armed → r.val < s.seq.table.length) →
      Moves x ((x.setSeq { s.seq with occurrence := n, link := link }).goTarget st.matchTarget .matched) := by
    intro link links
    rw [← keeps]
    exact .goTarget x n link _ _ (by
      rw [keeps]
      exact fun sound armed => ⟨(sound.rules here).2.1, fun r e => links r e sound armed⟩)
  rw [State.matchExit, State.stopGuard_setSeq, hs]
  cases kind : st.matchKind with
  | go => exact exit s.seq.link fun r e sound armed => (sound.2.2 armed).2 r e
  | call =>
    refine exit (some (s.seq.current + 1)) fun r e sound _ => ?_
    obtain rfl := Option.some.inj e
    exact succ_lt_of_call sound here kind

theorem Moves.elseExit (s : State) {st : StepRecord} {u : UnitId} (here : s.seq.step? = some st)
    (guard : st.guard = some u) : Moves s (s.elseExit st) := by
  refine (Quiet.stopGuard s (some st)).moves.trans ?_
  have keeps : (s.stopGuard (some st)).seq = s.seq := s.stopGuard_seq _
  rw [State.elseExit]
  generalize s.stopGuard (some st) = x at keeps ⊢
  cases exit : st.elseTarget with
  | none => exact .refl _
  | some t =>
    refine Moves.goTarget x x.seq.occurrence x.seq.link t .elsed ?_
    rw [keeps]
    exact fun sound armed => ⟨(sound.rules here).2.2.1 u t guard exit, (sound.2.2 armed).2⟩

/-! ### Actions (R90, R91) -/

theorem TxUnit.Sound.enqueue {u : TxUnit} (h : u.Sound) (place : u.queue.length < 4) (t : Transmission) :
    (u.enqueue t).Sound := by
  obtain ⟨-, idle, awaited, outside⟩ := h
  refine ⟨by simp only [TxUnit.enqueue, List.length_append, List.length_singleton]; omega, ?_, awaited, ?_⟩
  · simp only [TxUnit.enqueue]
    split_ifs with e <;> simp [e]
  · simp only [TxUnit.enqueue]
    split_ifs with e
    · intro _ _; exact outside (by simp [e]) (by simp [e])
    · exact outside

/-- The transmission a canned slot stands for (R149, R152). -/
def CannedMessage.transmission (m : CannedMessage) (c : Fin 8) : Transmission :=
  { source := .canned c, preamble := m.preamble, brk := m.brk, addrFirst := m.addrFirst, data := m.data }

theorem State.sendCanned_of_empty {s : State} {c : Fin 8} (h : s.canned[c] = none) :
    s.sendCanned c = s.report 0 LineStats.sendDropped := by
  simp only [State.sendCanned, h]

theorem State.sendCanned_of_room {s : State} {c : Fin 8} {m : CannedMessage} (h : s.canned[c] = some m)
    (may : (s.line m.line).canSend = true) (room : (s.line m.line).tx.queue.length < 4) :
    s.sendCanned c = s.setTx m.line ((s.line m.line).tx.enqueue (m.transmission c)) := by
  simp only [State.sendCanned, h]
  exact if_pos (by simp [may, room, Config.transmitPlaces])

theorem State.sendCanned_of_dropped {s : State} {c : Fin 8} {m : CannedMessage} (h : s.canned[c] = some m)
    (drop : (s.line m.line).canSend = false ∨ 4 ≤ (s.line m.line).tx.queue.length) :
    s.sendCanned c = s.report m.line LineStats.sendDropped := by
  simp only [State.sendCanned, h]
  refine if_neg ?_
  rcases drop with off | full
  · simp [off]
  · have noRoom : ¬(s.line m.line).tx.queue.length < Config.transmitPlaces := Nat.not_lt.mpr full
    simp [noRoom]

theorem canSend_and_room_or (l : Line) :
    (l.canSend = true ∧ l.tx.queue.length < 4) ∨ l.canSend = false ∨ 4 ≤ l.tx.queue.length := by
  cases l.canSend
  · exact .inr (.inl rfl)
  · rcases Nat.lt_or_ge l.tx.queue.length 4 with room | full
    · exact .inl ⟨rfl, room⟩
    · exact .inr (.inr full)

/-- A SEND action reads nothing of the sequencer. -/
theorem State.sendCanned_setSeq (s : State) (q : Sequencer) (c : Fin 8) :
    (s.setSeq q).sendCanned c = (s.sendCanned c).setSeq q := by
  cases slot : s.canned[c] with
  | none => rw [State.sendCanned_of_empty slot, State.sendCanned_of_empty (s := s.setSeq q) slot]; rfl
  | some m =>
    rcases canSend_and_room_or (s.line m.line) with ⟨may, room⟩ | drop
    · rw [State.sendCanned_of_room slot may room, State.sendCanned_of_room (s := s.setSeq q) slot may room]; rfl
    · rw [State.sendCanned_of_dropped slot drop, State.sendCanned_of_dropped (s := s.setSeq q) slot drop]; rfl

theorem Quiet.sendCanned (s : State) (c : Fin 8) : Quiet s (s.sendCanned c) := by
  cases slot : s.canned[c] with
  | none => rw [State.sendCanned_of_empty slot]; exact .reportDropped s 0
  | some m =>
    rcases canSend_and_room_or (s.line m.line) with ⟨may, room⟩ | drop
    · rw [State.sendCanned_of_room slot may room]
      exact .setTx s m.line fun h => h.enqueue room _
    · rw [State.sendCanned_of_dropped slot drop]
      exact .reportDropped s _

theorem State.sendCanned_seq (s : State) (c : Fin 8) : (s.sendCanned c).seq = s.seq := by
  cases slot : s.canned[c] with
  | none => rw [State.sendCanned_of_empty slot]; rfl
  | some m =>
    rcases canSend_and_room_or (s.line m.line) with ⟨may, room⟩ | drop
    · rw [State.sendCanned_of_room slot may room]; rfl
    · rw [State.sendCanned_of_dropped slot drop]; rfl

theorem Moves.performAction (s : State) (a : StepAction) : Moves s (s.performAction a) := by
  cases a with
  | none => exact .refl s
  | startTimer u => exact (Quiet.startTimer s u).moves
  | stopTimer u => exact (Quiet.stopTimer s u).moves
  | captureTimer u => exact .captureTimer s u
  | setFlag f =>
    exact (Quiet.setSeq s (q := { s.seq with flags := s.seq.flags ||| flagBit f })
      (.of_same rfl rfl rfl rfl rfl id)).moves
  | clearFlag f =>
    exact (Quiet.setSeq s (q := { s.seq with flags := s.seq.flags &&& ~~~flagBit f })
      (.of_same rfl rfl rfl rfl rfl id)).moves
  | pulse =>
    exact (Quiet.setSeq s (q := { s.seq with out := s.seq.out.pulseRequest })
      (.of_same rfl rfl rfl rfl rfl id)).moves
  | mark v => exact .offerSet s _ (markRecord_sized _ _ _ _)
  | send c => exact (Quiet.sendCanned s c).moves

/-- An action moves only the flags and the output of the sequencer. -/
theorem State.performAction_seq (s : State) (a : StepAction) :
    (s.performAction a).seq =
      { s.seq with flags := (s.performAction a).seq.flags, out := (s.performAction a).seq.out } := by
  cases a with
  | send c => simp only [State.performAction, State.sendCanned_seq]
  | none | startTimer | stopTimer | captureTimer | setFlag | clearFlag | mark | pulse => rfl

/-- The count of the current step is not read by an action. -/
theorem State.performAction_setOccurrence (s : State) (n : Nat) (a : StepAction) :
    (s.setSeq { s.seq with occurrence := n }).performAction a =
      (s.performAction a).setSeq { (s.performAction a).seq with occurrence := n } := by
  cases a with
  | send c =>
    show (s.setSeq { s.seq with occurrence := n }).sendCanned c =
      (s.sendCanned c).setSeq { (s.sendCanned c).seq with occurrence := n }
    rw [State.sendCanned_setSeq, State.sendCanned_seq]
  | none | startTimer | stopTimer | captureTimer | setFlag | clearFlag | mark | pulse => rfl

theorem Moves.actionAt (s : State) (st : StepRecord) (t : ActionTiming) : Moves s (s.actionAt st t) := by
  unfold State.actionAt
  split_ifs
  · exact .performAction s _
  · exact .refl s

theorem State.actionAt_seq (s : State) (st : StepRecord) (t : ActionTiming) :
    (s.actionAt st t).seq =
      { s.seq with flags := (s.actionAt st t).seq.flags, out := (s.actionAt st t).seq.out } := by
  unfold State.actionAt
  split_ifs
  · exact State.performAction_seq s _
  · rfl

theorem State.actionAt_setOccurrence (s : State) (n : Nat) (st : StepRecord) (t : ActionTiming) :
    (s.setSeq { s.seq with occurrence := n }).actionAt st t =
      (s.actionAt st t).setSeq { (s.actionAt st t).seq with occurrence := n } := by
  unfold State.actionAt
  split_ifs
  · exact State.performAction_setOccurrence s n _
  · rfl

theorem State.actionAt_step? (s : State) (st : StepRecord) (t : ActionTiming) :
    (s.actionAt st t).seq.step? = s.seq.step? := by rw [State.actionAt_seq]; rfl

/-! ### Taking an event (R79, R81 to R83) -/

theorem Quiet.consume (s : State) (st : StepRecord) : Quiet s (s.consume st) := by
  unfold State.consume
  split_ifs
  · exact .setSeq s (.of_same rfl rfl rfl rfl rfl id)
  · exact .refl s

theorem State.consume_setOccurrence (s : State) (n : Nat) (st : StepRecord) :
    (s.setSeq { s.seq with occurrence := n }).consume st =
      (s.consume st).setSeq { (s.consume st).seq with occurrence := n } := by
  unfold State.consume
  split_ifs <;> rfl

theorem State.consume_step? (s : State) (st : StepRecord) : (s.consume st).seq.step? = s.seq.step? := by
  unfold State.consume
  split_ifs <;> rfl

theorem Moves.advanceStep (s : State) {st : StepRecord} (here : s.seq.step? = some st) :
    Moves s (s.advanceStep st) := by
  rw [State.advanceStep]
  dsimp only
  split_ifs with last
  · rw [State.actionAt_setOccurrence, State.actionAt_setOccurrence, State.consume_setOccurrence]
    have run := ((Moves.actionAt s st .each).trans (.actionAt _ st .exit)).trans (Quiet.consume _ st).moves
    refine run.trans (.matchExit _ _ ?_)
    rw [State.consume_step?, State.actionAt_step?, State.actionAt_step?, here]
  · refine (Quiet.setSeq s (q := { s.seq with occurrence := satInc Config.count16Max s.seq.occurrence })
      ⟨fun sound => ⟨sound.1, sound.2.1, fun armed => ?_⟩, id⟩).moves.trans (.actionAt _ _ _)
    obtain ⟨⟨current, e, below⟩, links⟩ := sound.2.2 armed
    obtain rfl : current = st := Option.some.inj (e.symm.trans here)
    refine ⟨⟨current, e, lt_of_le_of_ne ?_ last⟩, links⟩
    simp only [satInc] at last ⊢
    split_ifs <;> omega

theorem Moves.flagEvent (s : State) {st : StepRecord} (e : SeqEvent) (here : s.seq.step? = some st) :
    Moves s (s.flagEvent st e) := by
  rw [State.flagEvent]
  have applied := (Quiet.setSeq s (q := { s.seq with flags := applyFlags s.seq.flags e.toSet e.toClear })
    (.of_same rfl rfl rfl rfl rfl id)).moves
  dsimp only
  split_ifs
  · exact applied.trans (.advanceStep _ here)
  · exact applied

theorem Moves.guardExpiry (s : State) {st : StepRecord} (e : SeqEvent) {u : UnitId} (here : s.seq.step? = some st)
    (guard : st.guard = some u) : Moves s (s.guardExpiry st e) := by
  rw [State.guardExpiry]
  have applied := (Quiet.setSeq s (q := { s.seq with flags := s.seq.flags ||| e.toSet })
    (.of_same rfl rfl rfl rfl rfl id)).moves
  exact (applied.trans (.actionAt _ _ _)).trans (.elseExit _ (by rw [State.actionAt_step?]; exact here) guard)

theorem Moves.judgeEvent (s : State) (e : SeqEvent) : Moves s (s.judgeEvent e) := by
  unfold State.judgeEvent
  split
  · exact .refl s
  · next st here =>
    split_ifs with expiry
    · obtain ⟨u, guard⟩ : ∃ u, st.guard = some u := by
        cases e with
        | timer u _ _ => exact ⟨u, by simpa [isGuardExpiry] using (Bool.and_eq_true_iff.1 expiry).1⟩
        | message | input | host => simp [isGuardExpiry] at expiry
      exact .guardExpiry s e here guard
    · exact .flagEvent s e here

theorem Moves.takeEvent (s : State) : Moves s s.takeEvent := by
  unfold State.takeEvent
  split
  · exact .refl s
  · next e rest queue =>
    have taken : Quiet s (s.setSeq { s.seq with queue := rest }).countTaken :=
      (Quiet.setSeq s (q := { s.seq with queue := rest }) (.of_same rfl rfl rfl rfl rfl fun h => by
        rw [queue, List.length_cons] at h
        exact (Nat.le_succ _).trans h)).trans (.countTaken _)
    dsimp only
    split_ifs
    · exact taken.moves.trans (.judgeEvent _ e)
    · exact taken.moves

/-! ### The tick (R38, R39) -/

theorem Receiver.tick_eq (r : Receiver) : r.tick = { r with tickCount := r.tick.tickCount } := by
  unfold Receiver.tick
  split <;> rfl

theorem Line.Keeps.tick (l : Line) : l.Keeps l.tick where
  receiver := fun r c => by
    simp only [Line.tick, Line.Closed]
    rw [Receiver.tick_eq]
    exact ⟨r, fun off => by rw [c off]; rfl⟩
  unit := id
  range := fun ⟨cfg, msg⟩ => ⟨cfg, fun m e => by
    obtain ⟨m0, e0, rfl⟩ := Option.map_eq_some_iff.1 e
    exact msg m0 e0⟩

theorem Moves.tickCounter (s : State) : Moves s s.tickCounter := by
  unfold State.tickCounter
  split_ifs
  · exact (Quiet.setTb s _).moves.trans (.offerSet _ _ (epochRecord_sized _ _))
  · exact (Quiet.setTb s _).moves

theorem Moves.tick (s : State) : Moves s s.tick := by
  rw [State.tick]
  refine (Moves.tickCounter s).trans ?_
  generalize s.tickCounter = x
  have lines : Quiet x { x with lines := x.lines.map Line.tick } :=
    .of_act (.lines _ fun i => by simpa [State.line] using Line.Keeps.tick x.lines[i])
  have units : Quiet { x with lines := x.lines.map Line.tick }
      { x with lines := x.lines.map Line.tick, timers := x.timers.map TimerUnit.tick,
               free := x.free + s.expiries.length } :=
    .of_act (.aside x.tb x.pins (x.timers.map TimerUnit.tick) x.canned (x.free + s.expiries.length))
  have out : Quiet { x with lines := x.lines.map Line.tick, timers := x.timers.map TimerUnit.tick,
                            free := x.free + s.expiries.length }
      { x with lines := x.lines.map Line.tick, timers := x.timers.map TimerUnit.tick,
               free := x.free + s.expiries.length, seq := { x.seq with out := x.seq.out.tick } } :=
    .setSeq _ (.of_same rfl rfl rfl rfl rfl id)
  exact (((lines.trans units).trans out).trans (.joinAll _ _)).moves

/-! ### Event inputs (R43 to R48) -/

theorem Moves.takeEdge (s : State) (i : PinId) (e : Edge) : Moves s (s.takeEdge i e) := by
  unfold State.takeEdge
  dsimp only
  split_ifs
  · split
    · exact .refl s
    · exact .offerSet s _ (syncRecord_sized _ _ _ _)
    · exact (Quiet.setTb s _).moves.trans (.offerSet _ _ (epochRecord_sized _ _))
    · exact (Quiet.joinQueue s _).moves
  · exact .refl s

theorem Moves.samplePin (s : State) (i : PinId) (l : PinLevel) : Moves s (s.samplePin i l) := by
  unfold State.samplePin
  dsimp only
  split
  · exact (Quiet.setPin s i _).moves
  · split_ifs
    · exact (Quiet.setPin s i _).moves
    · exact (Quiet.setPin s i _).moves.trans (.takeEdge _ _ _)
    · exact (Quiet.setPin s i _).moves

theorem Moves.samplePins (s : State) (i : PinId) (ls : List PinLevel) : Moves s (s.samplePins i ls) := by
  induction ls generalizing s with
  | nil => exact .refl s
  | cons l t ih => exact (Moves.samplePin s i l).trans (ih _)

theorem Moves.configurePin (s : State) (i : PinId) (f : PinFunction) (e : EdgeSelect) (flag : FlagId) (m : QuadSet) :
    Moves s (s.configurePin i f e flag m) := by
  unfold State.configurePin
  dsimp only
  split_ifs
  · exact (Quiet.setPin s i _).moves.trans (.takeEdge _ _ _)
  · exact (Quiet.setPin s i _).moves

/-! ### The sequencer's requests -/

theorem parseTable_length {n : Nat} {bs : List Byte} {table : List StepRecord} (h : parseTable n bs = some table) :
    table.length = n := by
  induction n generalizing bs table with
  | zero => obtain rfl : [] = table := Option.some.inj h; rfl
  | succ n ih =>
    simp only [parseTable, Option.bind_eq_bind, Option.bind_eq_some_iff, Option.pure_def, Option.some.injEq] at h
    obtain ⟨st, -, rest, tail, rfl⟩ := h
    rw [List.length_cons, ih tail]

theorem Quiet.seqLoad (s : State) {bytes : List Byte} (admitted : tableLength bytes.length = true) :
    Quiet s (seqLoad s bytes).state := by
  unfold Machine.seqLoad
  dsimp only
  split_ifs
  · exact .refl s
  · split
    · exact .refl s
    · next table parsed =>
      split
      · exact .refl s
      · next valid =>
        have loaded := parseTable_length parsed
        simp only [tableLength, Bool.and_eq_true, decide_eq_true_eq] at admitted
        refine .setSeq s ⟨fun _ => ⟨?_, ?_, by simp⟩, id⟩
        · show table.length ≤ 16
          omega
        · show firstBreak table.length 0 table = none
          rw [loaded]; exact valid

theorem Quiet.seqArm (s : State) : Quiet s (seqArm s).state := by
  by_cases h : s.seq.state = .armed
  · rw [seqArm_of_armed h]; exact .refl s
  · by_cases empty : s.seq.table = []
    · rw [seqArm_of_empty h empty]; exact .refl s
    · obtain ⟨timers, gen, e⟩ := (s.setSeq s.seq.cleared).enterStep_keeps 0
      rw [seqArm_of_loaded h empty, e]
      have unit : Quiet s { s with timers := timers } := .of_act (.aside s.tb s.pins timers s.canned s.free)
      refine unit.trans (.setSeq { s with timers := timers } ⟨fun sound => sound.enter rfl rfl fun _ => ⟨?_, ?_⟩, ?_⟩)
      · exact List.length_pos_of_ne_nil empty
      · simp [Sequencer.entered, Sequencer.cleared]
      · simp [Sequencer.entered, Sequencer.cleared]

theorem Quiet.seqDisarm (s : State) : Quiet s (seqDisarm s).state := by
  rw [seqDisarm_eq]
  have disarm : ∀ x : State, x.seq = s.seq → Quiet x (x.setSeq s.seq.disarmed) := fun x e =>
    .setSeq x (.of_resting (by rw [e]; rfl) (by simp [Sequencer.disarmed]) (by rw [e]; exact id))
  split_ifs
  · exact (Quiet.stopGuard s _).trans (disarm _ (s.stopGuard_seq _))
  · exact disarm s rfl

theorem Moves.seqForce (s : State) : Moves s (seqForce s).state := by
  unfold Machine.seqForce
  split_ifs
  · exact (Quiet.stopGuard s _).moves.trans (.fire _ (s.stopGuard s.seq.step?).seq rfl id .forced)
  · exact .refl s

theorem Quiet.seqMasks (s : State) (a b : Byte) : Quiet s (seqMasks s a b).state := by
  unfold Machine.seqMasks
  split
  · exact .setSeq s (.of_same rfl rfl rfl rfl rfl id)
  · exact .refl s

theorem Quiet.flagsWrite (s : State) (a b : Byte) : Quiet s (flagsWrite s a b).state := by
  unfold Machine.flagsWrite
  split_ifs
  · exact .refl s
  · exact .joinQueue s _
  · exact .joinQueue s _
  · exact .setSeq s (.of_same rfl rfl rfl rfl rfl id)

theorem Quiet.outputConfig (s : State) (l m : Byte) (w : Nat) : Quiet s (outputConfig s l m w).state := by
  unfold Machine.outputConfig
  split_ifs
  · exact .refl s
  · split
    · exact .setSeq s (.of_same rfl rfl rfl rfl rfl id)
    · exact .refl s

/-! ### The time base's, the inputs' and the timer units' requests -/

theorem Quiet.timeConfig (s : State) (d : Byte) : Quiet s (timeConfig s d).state := by
  unfold Machine.timeConfig
  split_ifs
  · exact .setTb s _
  · exact .refl s

theorem Moves.inputConfig (s : State) (a b c d e : Byte) : Moves s (inputConfig s a b c d e).state := by
  unfold Machine.inputConfig
  split
  · exact .configurePin s _ _ _ _ _
  · exact .refl s

theorem Quiet.timerConfig (s : State) (u : UnitId) (l : Nat) (a b c : Byte) :
    Quiet s (timerConfig s u l a b c).state := by
  unfold Machine.timerConfig
  split_ifs
  · exact .refl s
  · split
    · exact .setTimer s u _
    · exact .refl s

theorem Runs.withUnit {p : ActKind → Prop} {s : State} {act : UnitId → Answer} (h : ∀ u, Runs p s (act u).state)
    (b : Byte) : Runs p s (withUnit s b act).state := by
  unfold Machine.withUnit
  split
  · exact .refl s
  · exact h _

end Sys2Proof.Machine

/-! PROOFS. The assembler and the transmit unit do not read the receiver: what a delivery, a completion or a collision
does is the same whatever receiver the line holds, and leaves that receiver. -/

namespace Sys2Proof.Machine

/-! ### Parts of one line set one after another -/

@[simp] theorem State.line_useFree (s : State) (i : LineId) : s.useFree.line i = s.line i := rfl
@[simp] theorem State.line_setSeq (s : State) (q : Sequencer) (i : LineId) : (s.setSeq q).line i = s.line i := rfl
@[simp] theorem State.line_setLink (s : State) (k : Link) (i : LineId) : (s.setLink k).line i = s.line i := rfl
@[simp] theorem State.line_setStats (s : State) (st : Stats) (i : LineId) : (s.setStats st).line i = s.line i := rfl
@[simp] theorem State.line_raise (s : State) (n : Notice) (i : LineId) : (s.raise n).line i = s.line i := rfl
@[simp] theorem State.line_offer (s : State) (id : RegionId) (rec : Rec) (i : LineId) :
    (s.offer id rec).line i = s.line i := rfl
@[simp] theorem State.line_offerSet (s : State) (m : QuadSet) (rec : Rec) (i : LineId) :
    (s.offerSet m rec).line i = s.line i := rfl
@[simp] theorem State.line_report (s : State) (j : LineId) (f : LineStats → LineStats) (i : LineId) :
    (s.report j f).line i = s.line i := rfl
@[simp] theorem State.line_countHits (s : State) (p : MsgProps) (i : LineId) : (s.countHits p).line i = s.line i := rfl

@[simp] theorem State.line_joinQueue (s : State) (e : SeqEvent) (i : LineId) : (s.joinQueue e).line i = s.line i := by
  rw [State.joinQueue_keeps]; rfl

@[simp] theorem State.setLine_line (s : State) (i : LineId) : s.setLine i (s.line i) = s := by
  simp [State.setLine, State.line]

@[simp] theorem State.setRx_setRx (s : State) (i : LineId) (a b : Receiver) :
    (s.setRx i a).setRx i b = s.setRx i b := by simp [State.setRx]

@[simp] theorem State.setTx_setTx (s : State) (i : LineId) (a b : TxUnit) :
    (s.setTx i a).setTx i b = s.setTx i b := by simp [State.setTx]

@[simp] theorem State.setMsg_setMsg (s : State) (i : LineId) (a b : Option Message) :
    (s.setMsg i a).setMsg i b = s.setMsg i b := by simp [State.setMsg]

@[simp] theorem State.setRx_rx (s : State) (i : LineId) : s.setRx i (s.line i).rx = s :=
  s.setLine_line i

@[simp] theorem State.setTx_tx (s : State) (i : LineId) : s.setTx i (s.line i).tx = s :=
  s.setLine_line i

@[simp] theorem State.setMsg_msg (s : State) (i : LineId) : s.setMsg i (s.line i).msg = s :=
  s.setLine_line i

theorem State.setTx_setRx (s : State) (i : LineId) (r : Receiver) (u : TxUnit) :
    (s.setRx i r).setTx i u = (s.setTx i u).setRx i r := by simp [State.setRx, State.setTx]

theorem State.setMsg_setRx (s : State) (i : LineId) (r : Receiver) (m : Option Message) :
    (s.setRx i r).setMsg i m = (s.setMsg i m).setRx i r := by simp [State.setRx, State.setMsg]

theorem State.setMsg_setTx (s : State) (i : LineId) (u : TxUnit) (m : Option Message) :
    (s.setTx i u).setMsg i m = (s.setMsg i m).setTx i u := by simp [State.setTx, State.setMsg]

/-! ### Acts that do not read the lines -/

/-- The lines replaced. -/
def State.withLines (s : State) (v : Vector Line 4) : State := { s with lines := v }

theorem State.stopGuard_withLines (s : State) (v : Vector Line 4) (st : Option StepRecord) :
    (s.withLines v).stopGuard st = (s.stopGuard st).withLines v := by
  cases h : st.bind (·.guard) with
  | none => rw [State.stopGuard_of_none h, State.stopGuard_of_none h]
  | some u => rw [State.stopGuard_of_some h, State.stopGuard_of_some h]; rfl

theorem State.joinQueue_withLines (s : State) (v : Vector Line 4) (e : SeqEvent) :
    (s.withLines v).joinQueue e = (s.joinQueue e).withLines v := by
  rcases Nat.lt_or_ge s.seq.queue.length 16 with place | full
  · rw [State.joinQueue_of_place place, State.joinQueue_of_place (s := s.withLines v) place]; rfl
  · by_cases armed : s.seq.state = .armed
    · rw [State.joinQueue_of_full_armed full armed, State.joinQueue_of_full_armed (s := s.withLines v) full armed,
        State.stopGuard_withLines]
      rfl
    · have noPlace : ¬s.seq.queue.length < Config.eventPlaces := Nat.not_lt.mpr full
      have lost : ∀ t : State, t.seq = s.seq →
          t.joinQueue e = t.setStats { t.stats with eventsLost := satInc Config.count32Max t.stats.eventsLost } := by
        intro t h
        rw [State.joinQueue, h, if_neg noPlace, if_neg armed]
      rw [lost s rfl, lost (s.withLines v) rfl]
      rfl

theorem sendFlags_of_zero {s : State} {i : LineId} {flags : FlagSet} (h : flags = 0) : sendFlags s i flags = s :=
  if_pos h

theorem sendFlags_of_ne {s : State} {i : LineId} {flags : FlagSet} (h : flags ≠ 0) :
    sendFlags s i flags = s.joinQueue (.message i flags) := if_neg h

theorem sendFlags_withLines (s : State) (v : Vector Line 4) (i : LineId) (flags : FlagSet) :
    sendFlags (s.withLines v) i flags = (sendFlags s i flags).withLines v := by
  by_cases h : flags = 0
  · rw [sendFlags_of_zero h, sendFlags_of_zero h]
  · rw [sendFlags_of_ne h, sendFlags_of_ne h, State.joinQueue_withLines]

@[simp] theorem sendFlags_line (s : State) (i j : LineId) (flags : FlagSet) :
    (sendFlags s i flags).line j = s.line j := by
  by_cases h : flags = 0
  · rw [sendFlags_of_zero h]
  · rw [sendFlags_of_ne h, State.line_joinQueue]

/-! ### Completion, apart from closing the assembler (R29 to R33) -/

/-- The record offer of a completion and what became of it (R31). -/
def offered (c : LineSettings) (i : LineId) (cause : EndCause) (m : Message) (a : FilterAnswer) (s : State) :
    State × MsgOutcome :=
  match a.decision with
  | .drop => (s, .filtered)
  | .record =>
    (s.offer c.region (msgRecord i cause m a.index a.slice),
      if s.offerRecorded c.region (msgRecord i cause m a.index a.slice) then .recorded else .lost)

/-- A completion under a line's settings, up to the closing of the assembler. -/
def completed (c : LineSettings) (i : LineId) (cause : EndCause) (m : Message) (s : State) : State :=
  let a := filterAnswer (m.props i) c.defaultAction s.filters.toList
  let o := offered c i cause m a (s.countHits (m.props i))
  sendFlags (o.1.report i fun g => g.completion o.2 m.received m.flags.trunc) i a.flags

theorem completeMessage_eq (s : State) (i : LineId) (cause : EndCause) (m : Message) :
    completeMessage s i cause m = (completed (s.line i).cfg i cause m s).setMsg i none := rfl

theorem offered_withLines (c : LineSettings) (i : LineId) (cause : EndCause) (m : Message) (a : FilterAnswer)
    (s : State) (v : Vector Line 4) :
    offered c i cause m a (s.withLines v) =
      ((offered c i cause m a s).1.withLines v, (offered c i cause m a s).2) := by
  unfold offered
  cases a.decision <;> rfl

theorem completed_withLines (c : LineSettings) (i : LineId) (cause : EndCause) (m : Message) (s : State)
    (v : Vector Line 4) :
    completed c i cause m (s.withLines v) = (completed c i cause m s).withLines v := by
  have hits : ∀ p, (s.withLines v).countHits p = (s.countHits p).withLines v := fun _ => rfl
  have told : ∀ (t : State) (f : LineStats → LineStats), (t.withLines v).report i f = (t.report i f).withLines v :=
    fun _ _ => rfl
  have filters : (s.withLines v).filters = s.filters := rfl
  simp only [completed, hits, offered_withLines, told, sendFlags_withLines, filters]

theorem offered_lines (c : LineSettings) (i : LineId) (cause : EndCause) (m : Message) (a : FilterAnswer) (s : State) :
    (offered c i cause m a s).1.lines = s.lines := by
  unfold offered
  cases a.decision <;> rfl

/-- A completion leaves every line until the assembler closes. -/
theorem completed_lines (c : LineSettings) (i : LineId) (cause : EndCause) (m : Message) (s : State) :
    (completed c i cause m s).lines = s.lines := by
  have same := completed_withLines c i cause m s s.lines
  have own : s.withLines s.lines = s := rfl
  rw [own] at same
  rw [same]
  rfl

@[simp] theorem completed_line (c : LineSettings) (i : LineId) (cause : EndCause) (m : Message) (s : State)
    (j : LineId) : (completed c i cause m s).line j = s.line j := by
  rw [State.line, completed_lines]; rfl

theorem completeMessage_line_same (s : State) (i : LineId) (cause : EndCause) (m : Message) :
    (completeMessage s i cause m).line i = { s.line i with msg := none } := by
  rw [completeMessage_eq, State.line_setMsg_same, completed_line]

theorem completeMessage_line_other (s : State) {i j : LineId} (h : i ≠ j) (cause : EndCause) (m : Message) :
    (completeMessage s i cause m).line j = s.line j := by
  rw [completeMessage_eq, State.line_setMsg_other _ _ _ _ h, completed_line]

theorem completeOpen_of_none {s : State} {i : LineId} (h : (s.line i).msg = none) (cause : EndCause) :
    completeOpen s i cause = s := by
  simp only [completeOpen, h]

theorem completeOpen_of_some {s : State} {i : LineId} {m : Message} (h : (s.line i).msg = some m) (cause : EndCause) :
    completeOpen s i cause = completeMessage s i cause m := by
  simp only [completeOpen, h]

/-- After the completion of whatever is open the assembler is CLOSED, and the rest of the line is as it was. -/
@[simp] theorem completeOpen_line_same (s : State) (i : LineId) (cause : EndCause) :
    (completeOpen s i cause).line i = { s.line i with msg := none } := by
  cases h : (s.line i).msg with
  | none => rw [completeOpen_of_none h, ← h]
  | some m => rw [completeOpen_of_some h, completeMessage_line_same]

theorem completeOpen_line_other (s : State) {i j : LineId} (h : i ≠ j) (cause : EndCause) :
    (completeOpen s i cause).line j = s.line j := by
  cases open_ : (s.line i).msg with
  | none => rw [completeOpen_of_none open_]
  | some m => rw [completeOpen_of_some open_, completeMessage_line_other s h]

/-! ### Acts that do not read the receiver -/

/-- The act does the same whatever receiver the line holds, and leaves it. -/
def IgnoresRx (i : LineId) (f : State → State) : Prop := ∀ s r, f (s.setRx i r) = (f s).setRx i r

theorem IgnoresRx.rx {i : LineId} {f : State → State} (h : IgnoresRx i f) (s : State) :
    ((f s).line i).rx = (s.line i).rx := by
  have same := h s (s.line i).rx
  rw [State.setRx_rx] at same
  have rx := congrArg (fun t => (t.line i).rx) same
  simpa using rx

theorem IgnoresRx.comp {i : LineId} {f g : State → State} (hf : IgnoresRx i f) (hg : IgnoresRx i g) :
    IgnoresRx i (fun s => f (g s)) := fun s r => (congrArg f (hg s r)).trans (hf (g s) r)

theorem IgnoresRx.completeMessage (i : LineId) (cause : EndCause) (m : Message) :
    IgnoresRx i (fun s => completeMessage s i cause m) := by
  intro s r
  simp only [completeMessage_eq, State.line_setRx_same]
  have lines : s.setRx i r = s.withLines (s.setRx i r).lines := rfl
  rw [lines, completed_withLines]
  generalize hx : completed (s.line i).cfg i cause m s = x
  have here : x.lines = s.lines := by rw [← hx, completed_lines]
  have back : x.withLines (s.setRx i r).lines = x.setRx i r := by
    simp only [State.withLines, State.setRx, State.setLine, State.line, here]
  rw [back, State.setMsg_setRx]

theorem IgnoresRx.completeOpen (i : LineId) (cause : EndCause) : IgnoresRx i (fun s => completeOpen s i cause) := by
  intro s r
  cases h : (s.line i).msg with
  | none =>
    have h' : ((s.setRx i r).line i).msg = none := by simpa using h
    simp only [completeOpen_of_none h, completeOpen_of_none h']
  | some m =>
    have h' : ((s.setRx i r).line i).msg = some m := by simpa using h
    simp only [completeOpen_of_some h, completeOpen_of_some h']
    exact IgnoresRx.completeMessage i cause m s r

theorem IgnoresRx.joinMessage (i : LineId) (ch : Character) : IgnoresRx i (fun s => joinMessage s i ch) := by
  intro s r
  simp only [Machine.joinMessage, State.line_setRx_same]
  cases (s.line i).msg <;> simp only [State.setMsg_setRx]

theorem IgnoresRx.assembleCharacter (i : LineId) (ch : Character) :
    IgnoresRx i (fun s => assembleCharacter s i ch) := by
  intro s r
  simp only [Machine.assembleCharacter, State.line_setRx_same]
  split_ifs
  · exact (IgnoresRx.joinMessage i ch).comp (IgnoresRx.completeOpen i .address) s r
  · exact IgnoresRx.joinMessage i ch s r

theorem IgnoresRx.assembleBreak (i : LineId) (b : BreakInfo) : IgnoresRx i (fun s => assembleBreak s i b) := by
  intro s r
  have done := IgnoresRx.completeOpen i .brk s r
  simp only [Machine.assembleBreak, done, State.line_setRx_same]
  rfl

theorem IgnoresRx.collisionReport (i : LineId) : IgnoresRx i (fun s => collisionReport s i) := by
  intro s r
  simp only [Machine.collisionReport, State.line_setRx_same]
  cases (s.line i).msg <;> simp only [State.setMsg_setRx]

theorem IgnoresRx.endTx (i : LineId) (o : TxOutcome) : IgnoresRx i (fun s => s.endTx i o) := by
  intro s r
  simp only [State.endTx, State.line_setRx_same, State.setTx_setRx]
  split_ifs <;> rfl

theorem IgnoresRx.releaseIfHolding (i : LineId) : IgnoresRx i (fun s => releaseIfHolding s i) := by
  intro s r
  simp only [Machine.releaseIfHolding, State.line_setRx_same]
  split_ifs
  · exact IgnoresRx.endTx i .collision s r
  · rfl

theorem IgnoresRx.foundCollision (i : LineId) : IgnoresRx i (fun s => foundCollision s i) := by
  intro s r
  have told := (IgnoresRx.releaseIfHolding i).comp (IgnoresRx.collisionReport i)
  simp only [Machine.foundCollision, State.line_setRx_same, State.setTx_setRx]
  exact told _ r

theorem IgnoresRx.judgeHold (i : LineId) : IgnoresRx i (fun s => judgeHold s i) := by
  intro s r
  simp only [Machine.judgeHold, State.line_setRx_same]
  split_ifs
  · exact IgnoresRx.endTx i .ok s r
  · exact IgnoresRx.foundCollision i s r

theorem IgnoresRx.raceCollision (i : LineId) {deliver : State → State} (h : IgnoresRx i deliver) :
    IgnoresRx i (fun s => raceCollision s i deliver) := by
  intro s r
  have free : (s.setRx i r).free = s.free := rfl
  have used : (s.setRx i r).useFree = s.useFree.setRx i r := rfl
  simp only [Machine.raceCollision, free, used]
  split_ifs
  · exact h.comp (IgnoresRx.foundCollision i) s.useFree r
  · exact (IgnoresRx.foundCollision i).comp h s.useFree r

theorem IgnoresRx.deliverCharacter (i : LineId) (ch : Character) : IgnoresRx i (fun s => deliverCharacter s i ch) := by
  intro s r
  simp only [Machine.deliverCharacter, State.line_setRx_same]
  cases (s.line i).tx.judge (s.line i).cfg.format ch with
  | notJudged => exact IgnoresRx.assembleCharacter i ch s r
  | good =>
    simp only [State.setTx_setRx]
    exact IgnoresRx.assembleCharacter i ch _ r
  | collision => exact IgnoresRx.raceCollision i (IgnoresRx.assembleCharacter i ch) s r

theorem IgnoresRx.deliverBreak (i : LineId) (b : BreakInfo) : IgnoresRx i (fun s => deliverBreak s i b) := by
  intro s r
  simp only [Machine.deliverBreak, State.line_setRx_same]
  split_ifs
  · exact IgnoresRx.raceCollision i (IgnoresRx.assembleBreak i b) s r
  · exact IgnoresRx.assembleBreak i b s r

theorem IgnoresRx.handCharacter (i : LineId) (ch : Character) : IgnoresRx i (fun s => handCharacter s i ch) := by
  intro s r
  have done := IgnoresRx.deliverCharacter i ch s r
  simp only [Machine.handCharacter, done]
  rfl

theorem IgnoresRx.handBreak (i : LineId) (b : BreakInfo) : IgnoresRx i (fun s => handBreak s i b) := by
  intro s r
  have done := IgnoresRx.deliverBreak i b s r
  simp only [Machine.handBreak, done]
  rfl

/-- The receiver enters OFF after the open message has completed: nothing of the completion reads the receiver. -/
theorem enterOff_eq (s : State) (i : LineId) : enterOff s i = (completeOpen s i .stop).setRx i Receiver.off :=
  IgnoresRx.completeOpen i .stop s Receiver.off

end Sys2Proof.Machine

/-! PROOFS. The assembler, the transmit units and the receivers as runs of acts. -/

namespace Sys2Proof.Machine

/-! ### The message record and the status list -/

theorem msgRecord_sized (i : LineId) (cause : EndCause) {m : Message} (index : Option Nat) (slice : Nat)
    (stored : m.stored.length ≤ 256) (status : m.status.length ≤ 8) :
    Sized (msgRecord i cause m index slice).words := by
  have kept := keptBytes_length_le m slice
  have body := msgBody_length m index slice
  have flags := m.flags.headerBits_lt (sliced m slice)
  refine ⟨?_, _, rfl, ?_⟩
  · show 2 ≤ (msgBody m index slice).length + 1
    omega
  · exact headerSize_headerWord .msg i.isLt cause.code_lt (by omega) (by omega) (by omega)

theorem addEntries_length_le (position : Nat) (ks : List StatusKind) {l : List StatusEntry} (h : l.length ≤ 8) :
    (addEntries position ks l).1.length ≤ 8 := by
  induction ks generalizing l with
  | nil => exact h
  | cons k t ih =>
    rw [addEntries]
    split_ifs with room
    · have few : l.length < 8 := room.1
      exact ih (by simp only [List.length_append, List.length_singleton]; omega)
    · exact ih h

theorem Message.add_bounds {c : LineSettings} (hc : c.maxLength ≤ 256) {m : Message} (stored : m.stored.length ≤ 256)
    (status : m.status.length ≤ 8) (ch : Character) :
    (Message.add c m ch).stored.length ≤ 256 ∧ (Message.add c m ch).status.length ≤ 8 := by
  refine ⟨?_, addEntries_length_le _ _ status⟩
  simp only [Message.add, decide_eq_true_eq]
  split_ifs with room
  · simp only [List.length_append, List.length_singleton]; omega
  · exact stored

/-! ### The assembler -/

theorem Quiet.countHits (s : State) (p : MsgProps) : Quiet s (s.countHits p) :=
  .of_act (.filters _ (.inl rfl) fun _ e => by
    simpa [State.filter, Filter.count] using le_satIncIf _ _ _)

theorem Quiet.sendFlags (s : State) (i : LineId) (flags : FlagSet) : Quiet s (sendFlags s i flags) := by
  by_cases h : flags = 0
  · rw [sendFlags_of_zero h]; exact .refl s
  · rw [sendFlags_of_ne h]; exact .joinQueue s _

theorem Moves.completeMessage (s : State) (i : LineId) (cause : EndCause) {m : Message} (h : (s.line i).msg = some m) :
    Moves s (completeMessage s i cause m) := by
  rw [completeMessage_eq]
  refine Moves.trans ?_ (Quiet.closeMsg _ i).moves
  unfold completed
  have counted := (Quiet.countHits s (m.props i)).moves
  have offer : ∀ a, Moves (s.countHits (m.props i)) (offered (s.line i).cfg i cause m a (s.countHits (m.props i))).1 := by
    intro a
    unfold offered
    cases a.decision with
    | drop => exact .refl _
    | record =>
      refine .of_offer _ fun inRange => ?_
      obtain ⟨stored, status⟩ := (inRange i).2 m h
      exact msgRecord_sized i cause _ _ stored status
  exact ((counted.trans (offer _)).trans (Quiet.reportCompletion _ i _ _ _).moves).trans (Quiet.sendFlags _ i _).moves

theorem Moves.completeOpen (s : State) (i : LineId) (cause : EndCause) : Moves s (completeOpen s i cause) := by
  cases h : (s.line i).msg with
  | none => rw [completeOpen_of_none h]; exact .refl s
  | some m => rw [completeOpen_of_some h]; exact .completeMessage s i cause h

/-- The receiver is neither OFF nor in SETTLE. -/
def Receiver.Running (r : Receiver) : Prop := r.state ≠ .off ∧ r.state ≠ .settle

theorem Quiet.joinMessage {s : State} {i : LineId} (running : (s.line i).rx.Running) (ch : Character) :
    Quiet s (joinMessage s i ch) := by
  unfold Machine.joinMessage
  dsimp only
  split
  · refine .setMsg s i (fun _ => running) fun inRange => ?_
    obtain ⟨-, -, -, -, cap, -⟩ := inRange.1
    exact Message.add_bounds cap (by simp [openMessage]) (by simp [openMessage]) ch
  · next m e =>
    refine .setMsg s i (fun _ => running) fun inRange => ?_
    obtain ⟨-, -, -, -, cap, -⟩ := inRange.1
    obtain ⟨stored, status⟩ := inRange.2 m e
    exact Message.add_bounds cap stored status ch

theorem Moves.assembleCharacter {s : State} {i : LineId} (running : (s.line i).rx.Running) (ch : Character) :
    Moves s (assembleCharacter s i ch) := by
  unfold Machine.assembleCharacter
  split_ifs
  · refine (Moves.completeOpen s i .address).trans (Quiet.joinMessage ?_ ch).moves
    rw [completeOpen_line_same]; exact running
  · exact (Quiet.joinMessage running ch).moves

theorem Moves.assembleBreak (s : State) (i : LineId) (b : BreakInfo) : Moves s (assembleBreak s i b) :=
  (Moves.completeOpen s i .brk).trans (.of_offer _ fun _ => brkRecord_sized i b)

theorem Quiet.collisionReport (s : State) (i : LineId) : Quiet s (collisionReport s i) := by
  unfold Machine.collisionReport
  split
  · exact .refl s
  · next m e => exact .setMsg s i (fun none => by rw [none] at e; cases e) fun inRange => inRange.2 m e

/-! ### The transmit unit -/

/-- A sound unit's queue holds something outside TX_IDLE. -/
theorem TxUnit.Sound.queue_ne_nil {u : TxUnit} (h : u.Sound) (busy : u.state ≠ .idle) : u.queue ≠ [] :=
  fun e => busy (h.2.1.2 e)

theorem TxUnit.Sound.dropOldest {u : TxUnit} (h : u.Sound) : u.dropOldest.Sound := by
  have short := h.1
  refine ⟨by simp only [TxUnit.dropOldest, List.length_tail]; omega, ?_, by simp [TxUnit.dropOldest],
    fun _ _ => rfl⟩
  simp only [TxUnit.dropOldest]
  cases u.queue.tail <;> simp

theorem TxUnit.Sound.setOutcome {u : TxUnit} (h : u.Sound) (o : Option TxOutcome) :
    ({ u with lastOutcome := o } : TxUnit).Sound := h

/-- Ending judges no more: the list of awaited echoes is emptied. -/
theorem TxUnit.Sound.collide {u : TxUnit} (h : u.Sound) :
    ({ u with collided := true, awaited := [] } : TxUnit).Sound := ⟨h.1, h.2.1, by simp, fun _ _ => rfl⟩

/-- The queue cut down to the transmission in progress. -/
theorem TxUnit.Sound.take_one {u : TxUnit} (h : u.Sound) (busy : u.state ≠ .idle) {a : List AwaitedEcho} {c : TxCut}
    (ha : a = u.awaited ∨ a = []) :
    ({ u with queue := u.queue.take 1, awaited := a, cut := c } : TxUnit).Sound := by
  have some := h.queue_ne_nil busy
  obtain ⟨short, -, awaited, outside⟩ := h
  refine ⟨by simp only [List.length_take]; omega, by simp [busy, some], ?_, fun d g => ?_⟩
  · rcases ha with rfl | rfl
    · exact awaited
    · simp
  · rcases ha with rfl | rfl
    · exact outside d g
    · rfl

theorem Quiet.endTx (s : State) (i : LineId) (o : TxOutcome) : Quiet s (s.endTx i o) := by
  have ended : Quiet s ((s.setTx i { (s.line i).tx.dropOldest with lastOutcome := some o }).report i
      (fun g => g.txOutcome o)) :=
    (Quiet.setTx s i fun h => h.dropOldest.setOutcome (some o)).trans (.reportOutcome _ i o)
  unfold State.endTx
  dsimp only
  split_ifs
  · exact ended.trans (.raise _ _)
  · exact ended

theorem Quiet.releaseIfHolding (s : State) (i : LineId) : Quiet s (releaseIfHolding s i) := by
  unfold Machine.releaseIfHolding
  split_ifs
  · exact .endTx s i _
  · exact .refl s

/-- A collision is found in a unit whose other fields have just been set. -/
theorem foundCollision_setTx (s : State) (i : LineId) (u : TxUnit) :
    foundCollision (s.setTx i u) i =
      releaseIfHolding (collisionReport (s.setTx i { u with collided := true, awaited := [] }) i) i := by
  simp only [foundCollision, State.line_setTx_same, State.setTx_setTx]

theorem Quiet.foundCollision_of {s : State} {i : LineId} {u : TxUnit}
    (h : (s.line i).tx.Sound → ({ u with collided := true, awaited := [] } : TxUnit).Sound) :
    Quiet s (foundCollision (s.setTx i u) i) := by
  rw [foundCollision_setTx]
  exact ((Quiet.setTx s i h).trans (.collisionReport _ i)).trans (.releaseIfHolding _ i)

theorem Quiet.foundCollision (s : State) (i : LineId) : Quiet s (foundCollision s i) := by
  have own := Quiet.foundCollision_of (s := s) (i := i) (u := (s.line i).tx) TxUnit.Sound.collide
  rwa [State.setTx_tx] at own

theorem Quiet.judgeHold (s : State) (i : LineId) : Quiet s (judgeHold s i) := by
  unfold Machine.judgeHold
  split_ifs
  · exact .endTx s i _
  · exact .foundCollision s i

/-- The next character begins on the pin, or the hold does. -/
theorem TxUnit.beginNext_sound {u : TxUnit} (c : LineSettings) (h : u.Sound)
    (few : u.collided = true ∨ u.awaited.length ≤ 1) : (u.beginNext c).Sound := by
  obtain ⟨short, idle, awaited, outside⟩ := h
  unfold TxUnit.beginNext
  split
  · exact ⟨short, idle, awaited, outside⟩
  · next t first =>
    have some : u.queue ≠ [] := by rintro e; simp [e] at first
    split
    · exact ⟨short, by simp [some], awaited, by simp⟩
    · refine ⟨short, by simp [some], ?_, by simp⟩
      dsimp only
      split_ifs with collided
      · exact awaited
      · have one := few.resolve_left collided
        simp only [List.length_append, List.length_singleton]
        omega

/-- With two echoes awaited the next character begins too, but the collision found at once empties the list. -/
theorem TxUnit.beginNext_collide_sound {u : TxUnit} (c : LineSettings) (h : u.Sound) :
    ({ u.beginNext c with collided := true, awaited := [] } : TxUnit).Sound := by
  obtain ⟨short, idle, -, -⟩ := h
  unfold TxUnit.beginNext
  split
  · exact ⟨short, idle, by simp, fun _ _ => rfl⟩
  · next t first =>
    have some : u.queue ≠ [] := by rintro e; simp [e] at first
    split <;> exact ⟨short, by simp [some], by simp, fun _ _ => rfl⟩

/-- Outside TX_DATA and TX_HOLD no echo is awaited. -/
theorem TxUnit.Sound.few {u : TxUnit} (h : u.Sound) (data : u.state ≠ .data) (hold : u.state ≠ .hold) :
    u.collided = true ∨ u.awaited.length ≤ 1 := .inr (by rw [h.2.2.2 data hold]; simp)

theorem TxUnit.afterPreamble_sound {u : TxUnit} (c : LineSettings) (h : u.Sound) (data : u.state ≠ .data)
    (hold : u.state ≠ .hold) : (u.afterPreamble c).Sound := by
  unfold TxUnit.afterPreamble
  split
  · exact h
  · next t first =>
    split_ifs
    · have some : u.queue ≠ [] := by rintro e; simp [e] at first
      have none := h.2.2.2 data hold
      exact ⟨h.1, by simp [some], h.2.2.1, fun _ _ => none⟩
    · exact TxUnit.beginNext_sound c h (h.few data hold)

theorem TxUnit.take_sound {u : TxUnit} (c : LineSettings) (h : u.Sound) (data : u.state ≠ .data)
    (hold : u.state ≠ .hold) : (u.take c).Sound := by
  unfold TxUnit.take
  split
  · exact h
  · next t first =>
    split_ifs
    · have some : u.queue ≠ [] := by rintro e; simp [e] at first
      have none := h.2.2.2 data hold
      exact ⟨h.1, by simp [some], h.2.2.1, fun _ _ => none⟩
    · exact TxUnit.afterPreamble_sound c h data hold

theorem Line.mayTake_wait {l : Line} (h : l.mayTake = true) : l.tx.state = .wait := by
  simp only [Line.mayTake, Bool.and_eq_true, beq_iff_eq] at h
  exact h.1.1.1

theorem Quiet.takeLine (s : State) (i : LineId) : Quiet s (takeLine s i) := by
  unfold Machine.takeLine
  dsimp only
  split_ifs with may
  · have wait := Line.mayTake_wait may
    exact .setTx s i fun h => TxUnit.take_sound _ h (by simp [wait]) (by simp [wait])
  · exact .refl s

theorem Quiet.preambleEnd (s : State) (i : LineId) : Quiet s (preambleEnd s i) := by
  unfold Machine.preambleEnd
  dsimp only
  split_ifs with state
  · exact .setTx s i fun h => TxUnit.afterPreamble_sound _ h (by simp [state]) (by simp [state])
  · exact .refl s

theorem Quiet.txBreakEnd (s : State) (i : LineId) : Quiet s (txBreakEnd s i) := by
  unfold Machine.txBreakEnd
  dsimp only
  split_ifs with state
  · exact .setTx s i fun h => TxUnit.beginNext_sound _ h (h.few (by simp [state]) (by simp [state]))
  · exact .refl s

/-- In TX_DATA without a cut or a collision, fewer than two echoes are awaited when no deadline passes now. -/
theorem TxUnit.few_of_no_deadline {u : TxUnit} (data : u.state = .data) (whole : u.cut = .none)
    (alone : ¬u.collided = true) (deadline : ¬u.deadlineNow = true) : u.awaited.length ≤ 1 := by
  simp [TxUnit.deadlineNow, TxUnit.judging, data, whole, alone] at deadline
  omega

theorem Quiet.txCharacterEnd (s : State) (i : LineId) : Quiet s (txCharacterEnd s i) := by
  unfold Machine.txCharacterEnd
  dsimp only
  by_cases data : (s.line i).tx.state = .data
  · rw [if_pos data]
    cases cut : (s.line i).tx.cut with
    | reset => exact .setTx s i TxUnit.Sound.dropOldest
    | flushed => exact .endTx s i _
    | none =>
      dsimp only
      split_ifs with collided deadline
      · exact .endTx s i _
      · exact .foundCollision_of fun h => TxUnit.beginNext_collide_sound _ h
      · exact .setTx s i fun h =>
          TxUnit.beginNext_sound _ h (.inr (TxUnit.few_of_no_deadline data cut collided deadline))
  · rw [if_neg data]; exact .refl s

theorem Quiet.echoDeadline (s : State) (i : LineId) : Quiet s (echoDeadline s i) := by
  unfold Machine.echoDeadline
  split_ifs
  · exact .foundCollision s i
  · exact .refl s

theorem Quiet.holdEnd (s : State) (i : LineId) : Quiet s (holdEnd s i) := by
  unfold Machine.holdEnd
  split_ifs
  · exact .judgeHold s i
  · exact .refl s

theorem Quiet.fallSeen (s : State) (i : LineId) : Quiet s (fallSeen s i) := by
  unfold Machine.fallSeen
  dsimp only
  split
  · next state =>
    refine (Quiet.setTx s i fun h => ?_).trans (.reportDeferral _ i)
    have some := h.queue_ne_nil (by simp [state])
    have none := h.2.2.2 (by simp [state]) (by simp [state])
    exact ⟨h.1, by simp [some], h.2.2.1, fun _ _ => none⟩
  · exact .judgeHold s i
  all_goals exact .refl s

theorem Quiet.flushTx (s : State) (i : LineId) : Quiet s (flushTx s i) := by
  have aborted : (s.line i).tx.state ≠ .idle →
      Quiet s ((s.setTx i { (s.line i).tx with queue := (s.line i).tx.queue.take 1 }).endTx i .aborted) :=
    fun busy => (Quiet.setTx s i fun h => h.take_one busy (.inl rfl)).trans (.endTx _ i _)
  have emptied : Quiet s (s.setTx i { (s.line i).tx with queue := [], state := .idle, awaited := [] }) :=
    .setTx s i fun _ => ⟨by simp, by simp, by simp, fun _ _ => rfl⟩
  unfold Machine.flushTx
  dsimp only
  split
  · exact emptied
  · exact emptied
  · next state => exact aborted (by simp [state])
  · next state => exact aborted (by simp [state])
  · next state => exact .setTx s i fun h => h.take_one (by simp [state]) (.inr rfl)
  · next state => exact (Quiet.setTx s i fun h => h.take_one (by simp [state]) (.inl rfl)).trans (.judgeHold _ i)

theorem TxUnit.Sound.afterLineReset {u : TxUnit} (h : u.Sound) : u.afterLineReset.Sound := by
  unfold TxUnit.afterLineReset
  split_ifs with data
  · exact h.take_one (by simp [data]) (.inr rfl)
  · exact ⟨by simp, by simp, by simp, fun _ _ => rfl⟩

/-! ### Deliveries (R10, R12, R24, R157) -/

theorem Moves.raceCollision {s : State} {i : LineId} {deliver : State → State}
    (h : ∀ t, (t.line i).rx = (s.line i).rx → Moves t (deliver t)) : Moves s (raceCollision s i deliver) := by
  have used := (Quiet.useFree s).moves
  unfold Machine.raceCollision
  split_ifs
  · refine (used.trans (Quiet.foundCollision s.useFree i).moves).trans (h _ ?_)
    exact (IgnoresRx.foundCollision i).rx s.useFree
  · exact (used.trans (h _ rfl)).trans (Quiet.foundCollision _ i).moves

theorem TxUnit.Sound.dropEcho {u : TxUnit} (h : u.Sound) : ({ u with awaited := u.awaited.tail } : TxUnit).Sound := by
  obtain ⟨short, idle, awaited, outside⟩ := h
  refine ⟨short, idle, ?_, fun data hold => ?_⟩
  · simp only [List.length_tail]; omega
  · show u.awaited.tail = []
    rw [outside data hold]; rfl

theorem Moves.handCharacter {s : State} {i : LineId} (running : (s.line i).rx.Running) (ch : Character) :
    Moves s (handCharacter s i ch) := by
  refine Moves.trans ?_ (Quiet.reportCharacter _ i ch).moves
  unfold Machine.deliverCharacter
  dsimp only
  split
  · exact .assembleCharacter running ch
  · refine (Quiet.setTx s i (u := { (s.line i).tx with awaited := (s.line i).tx.awaited.tail })
      TxUnit.Sound.dropEcho).moves.trans (.assembleCharacter ?_ ch)
    rw [State.line_setTx_same]
    exact running
  · exact .raceCollision fun t same => .assembleCharacter (by rw [same]; exact running) ch

theorem Moves.handBreak (s : State) (i : LineId) (b : BreakInfo) : Moves s (handBreak s i b) := by
  refine Moves.trans ?_ (Quiet.reportBreak _ i).moves
  unfold Machine.deliverBreak
  split_ifs
  · exact .raceCollision fun t _ => .assembleBreak t i b
  · exact .assembleBreak s i b

/-- The receiver goes OFF once the open message has completed. -/
theorem Moves.enterOff (s : State) (i : LineId) : Moves s (enterOff s i) := by
  rw [enterOff_eq]
  refine (Moves.completeOpen s i .stop).trans (Quiet.setRx _ i fun _ _ => ⟨?_, fun _ => ?_⟩).moves
  · simp [Receiver.Sound, Receiver.off]
  · rw [completeOpen_line_same]

end Sys2Proof.Machine

/-! PROOFS. The samples of a receiver (R3 to R14): one equation for each case of a sample, and what a sample keeps. -/

namespace Sys2Proof.Machine

/-! ### One equation for each case of a sample -/

/-- A sample noted: the level, the count since the fall, and the votes of places 7 and 8. -/
def Receiver.noted (r : Receiver) (n place : Nat) (l : Level) : Receiver :=
  { r with level := l, frameSamples := n, vote7 := if place = 7 then l else r.vote7,
           vote8 := if place = 8 then l else r.vote8 }

section
variable {c : LineSettings} {x : RxContext} {r : Receiver} {l : Level}

theorem Receiver.sample_of_off (h : r.state = .off) (l : Level) : r.sample c x l = (r, .nothing) := by
  simp only [Receiver.sample, h]

theorem Receiver.sample_of_settle (h : r.state = .settle) (l : Level) : r.sample c x l = r.sampleSettle l := by
  simp only [Receiver.sample, h]

theorem Receiver.sample_of_hunt (h : r.state = .hunt) (l : Level) : r.sample c x l = r.sampleHunt x l := by
  simp only [Receiver.sample, h]

theorem Receiver.sample_of_char (h : r.state = .char) (l : Level) : r.sample c x l = r.sampleChar c l := by
  simp only [Receiver.sample, h]

theorem Receiver.sample_of_breakHold (h : r.state = .breakHold) (l : Level) : r.sample c x l = r.sampleBreak l := by
  simp only [Receiver.sample, h]

theorem Receiver.sampleSettle_space :
    r.sampleSettle .space = ({ r with level := .space, markRun := 0, idle := 0 }, .nothing) := rfl

theorem Receiver.sampleSettle_mark (h : r.markRun < 191) :
    r.sampleSettle .mark =
      ({ r with level := .mark, markRun := r.markRun + 1, idle := (r.markRun + 1) / 16 }, .nothing) :=
  if_pos (by omega)

/-- The receiver that SETTLE ends in (R5). -/
def Receiver.settled (r : Receiver) : Receiver :=
  { r with state := .hunt, level := .mark, markRun := 0, idle := 12, idleSamples := 0, startPending := false,
           awaitingMark := false }

theorem Receiver.sampleSettle_last (h : 191 ≤ r.markRun) : r.sampleSettle .mark = (r.settled, .settled) :=
  if_neg (by omega)

theorem Receiver.sampleHunt_of_pending (h : r.startPending = true) : r.sampleHunt x l = r.samplePending x l :=
  if_pos h

theorem Receiver.sampleHunt_mark (h : r.startPending = false) :
    r.sampleHunt x .mark = ({ r with level := .mark, awaitingMark := false } : Receiver).countMark :=
  if_neg (by simp [h])

theorem Receiver.sampleHunt_fall (h : r.startPending = false) (seen : r.awaitingMark = false ∧ r.level = .mark) :
    r.sampleHunt x .space = ({ r with level := .space, startPending := true, frameSamples := 1 }, .fall) := by
  simp only [Receiver.sampleHunt, h, Bool.false_eq_true, if_false, if_pos seen]

theorem Receiver.sampleHunt_space (h : r.startPending = false) (unseen : ¬(r.awaitingMark = false ∧ r.level = .mark)) :
    r.sampleHunt x .space = ({ r with level := .space }, .nothing) := by
  simp only [Receiver.sampleHunt, h, Bool.false_eq_true, if_false, if_neg unseen]

theorem Receiver.countMark_few (h : r.idleSamples < 15) :
    r.countMark = ({ r with idleSamples := r.idleSamples + 1 }, .nothing) := if_pos (by omega)

theorem Receiver.countMark_rise (h : 15 ≤ r.idleSamples) (below : r.idle < 255) :
    r.countMark = ({ r with idleSamples := 0, idle := r.idle + 1 }, .idleRose (r.idle + 1)) := by
  rw [Receiver.countMark, if_neg (by omega)]
  exact if_pos below

theorem Receiver.countMark_full (h : 15 ≤ r.idleSamples) (full : 255 ≤ r.idle) :
    r.countMark = ({ r with idleSamples := 0 }, .nothing) := by
  rw [Receiver.countMark, if_neg (by omega)]
  exact if_neg (Nat.not_lt.mpr full)

theorem Receiver.samplePending_few (h : r.frameSamples + 1 < 9) :
    r.samplePending x l = (r.noted (r.frameSamples + 1) (r.frameSamples + 1) l, .nothing) := if_pos h

theorem Receiver.samplePending_space (h : ¬r.frameSamples + 1 < 9)
    (vote : majority ⟨r.vote7, r.vote8, l⟩ = .space) :
    r.samplePending x l =
      ((r.noted (r.frameSamples + 1) (r.frameSamples + 1) l).validate x (!unanimous ⟨r.vote7, r.vote8, l⟩),
        .validated) := by
  simp only [Receiver.samplePending, if_neg h, vote]
  rfl

theorem Receiver.samplePending_mark (h : ¬r.frameSamples + 1 < 9) (vote : majority ⟨r.vote7, r.vote8, l⟩ = .mark) :
    r.samplePending x l =
      ({ r.noted (r.frameSamples + 1) (r.frameSamples + 1) l with startPending := false, frameSamples := 0 },
        .falseStart) := by
  simp only [Receiver.samplePending, if_neg h, vote]
  rfl

/-- A sample of a character noted at its place in its slot. -/
def Receiver.notedChar (r : Receiver) (l : Level) : Receiver :=
  r.noted (r.frameSamples + 1) (placeOf (r.frameSamples + 1)) l

/-- The sample decides a slot of the frame after the start bit (R4, R7). -/
abbrev Receiver.decides (c : LineSettings) (r : Receiver) : Prop :=
  placeOf (r.frameSamples + 1) = 9 ∧ 1 ≤ slotOf (r.frameSamples + 1) ∧ slotOf (r.frameSamples + 1) ≤ firstStopSlot c

/-- The sample ends the frame (R10). -/
abbrev Receiver.ends (c : LineSettings) (r : Receiver) : Prop :=
  placeOf (r.frameSamples + 1) = 16 ∧ lastStopSlot c ≤ slotOf (r.frameSamples + 1)

/-- The receiver once the sample has decided its slot (R7). -/
def Receiver.decided (r : Receiver) (l : Level) : Receiver :=
  { r.notedChar l with
    slots := r.slots ++ [majority ⟨r.vote7, r.vote8, l⟩]
    noise := r.noise || !unanimous ⟨r.vote7, r.vote8, l⟩ }

/-- The votes read at sample 9 are those of samples 7 and 8. -/
theorem Receiver.notedChar_decideSlot (h : placeOf (r.frameSamples + 1) = 9) (l : Level) :
    (r.notedChar l).decideSlot l = r.decided l := by
  simp [Receiver.notedChar, Receiver.noted, Receiver.decideSlot, Receiver.decided, h]

/-- The receiver that recognises a break (R9). -/
def Receiver.inBreak (r : Receiver) (l : Level) : Receiver :=
  { r.decided l with state := .breakHold, markRun := 0, frameSamples := 0 }

/-- The four ways a sample of a character can go, in the order in which they are told apart. -/
theorem Receiver.sampleChar_eq (c : LineSettings) (r : Receiver) (l : Level) :
    r.sampleChar c l =
      if r.decides c then
        if slotOf (r.frameSamples + 1) = firstStopSlot c ∧ allSpace ((r.notedChar l).decideSlot l).slots = true then
          ({ (r.notedChar l).decideSlot l with state := .breakHold, markRun := 0, frameSamples := 0 }, .breakFound)
        else ((r.notedChar l).decideSlot l, .nothing)
      else if r.ends c then ((r.notedChar l).enterHunt l, .character ((r.notedChar l).builtCharacter c))
      else (r.notedChar l, .nothing) := rfl

theorem Receiver.sampleChar_break (h : r.decides c) (last : slotOf (r.frameSamples + 1) = firstStopSlot c)
    (spaces : allSpace (r.decided l).slots = true) : r.sampleChar c l = (r.inBreak l, .breakFound) := by
  rw [Receiver.sampleChar_eq, if_pos h, Receiver.notedChar_decideSlot h.1, if_pos ⟨last, spaces⟩]
  rfl

theorem Receiver.sampleChar_decide (h : r.decides c)
    (more : ¬(slotOf (r.frameSamples + 1) = firstStopSlot c ∧ allSpace (r.decided l).slots = true)) :
    r.sampleChar c l = (r.decided l, .nothing) := by
  rw [Receiver.sampleChar_eq, if_pos h, Receiver.notedChar_decideSlot h.1, if_neg more]

theorem Receiver.not_decides_of_ends (h : r.ends c) : ¬r.decides c := fun d => by
  have nine := d.1
  rw [h.1] at nine
  exact absurd nine (by norm_num)

theorem Receiver.sampleChar_end (h : r.ends c) :
    r.sampleChar c l = (r.enterHunt l, .character (r.builtCharacter c)) := by
  rw [Receiver.sampleChar_eq, if_neg (Receiver.not_decides_of_ends h), if_pos h]
  simp [Receiver.enterHunt, Receiver.builtCharacter, Receiver.notedChar, Receiver.noted, h.1]

theorem Receiver.sampleChar_between (h : ¬r.decides c) (g : ¬r.ends c) :
    r.sampleChar c l = (r.notedChar l, .nothing) := by
  rw [Receiver.sampleChar_eq, if_neg h, if_neg g]

theorem Receiver.sampleBreak_space : r.sampleBreak .space = ({ r with level := .space, markRun := 0 }, .nothing) := rfl

theorem Receiver.sampleBreak_mark (h : r.markRun < 7) :
    r.sampleBreak .mark = ({ r with level := .mark, markRun := r.markRun + 1 }, .nothing) := if_pos (by omega)

theorem Receiver.sampleBreak_end (h : 7 ≤ r.markRun) :
    r.sampleBreak .mark = (r.enterHunt .mark, .breakEnded (r.breakInfo false)) := if_neg (by omega)

end

/-! ### What a sample keeps of a sound receiver -/

/-- Soundness reads the state, the idle measure, the mark run and the three conditions. -/
theorem Receiver.Sound.congr {r t : Receiver} (h : r.Sound) (state : t.state = r.state) (idle : t.idle = r.idle)
    (run : t.markRun = r.markRun) (stop : t.stopPending = r.stopPending) (start : t.startPending = r.startPending)
    (await : t.awaitingMark = r.awaitingMark) : t.Sound := by
  simp only [Receiver.Sound, state, idle, run, stop, start, await]
  exact h

/-- A receiver in CHAR, or in a break, without the conditions of other states. -/
theorem Receiver.Sound.of_hunt {r : Receiver} (hunt : r.state = .hunt) (idle : r.idle ≤ 255)
    (stop : r.stopPending = false) (start : r.startPending = true → r.awaitingMark = false) : r.Sound :=
  ⟨idle, by simp [hunt], by simp [hunt], by simp [stop], fun h => ⟨hunt, start h⟩, fun _ => hunt⟩

theorem Receiver.Sound.of_busy {r : Receiver} (busy : r.state = .char ∨ r.state = .breakHold) (idle : r.idle = 0)
    (stop : r.stopPending = true → r.state = .char) (start : r.startPending = false)
    (await : r.awaitingMark = false) : r.Sound := by
  have notSettle : r.state ≠ .settle := by rcases busy with e | e <;> simp [e]
  exact ⟨by omega, fun _ => idle, fun e => absurd e notSettle, stop, by simp [start], by simp [await]⟩

theorem Receiver.Sound.no_stop {r : Receiver} (h : r.Sound) (notChar : r.state ≠ .char) : r.stopPending = false := by
  by_contra e
  exact notChar (h.2.2.2.1 (by simpa using e))

theorem Receiver.Sound.no_start {r : Receiver} (h : r.Sound) (notHunt : r.state ≠ .hunt) : r.startPending = false := by
  by_contra e
  exact notHunt (h.2.2.2.2.1 (by simpa using e)).1

theorem Receiver.Sound.no_await {r : Receiver} (h : r.Sound) (notHunt : r.state ≠ .hunt) : r.awaitingMark = false := by
  by_contra e
  exact notHunt (h.2.2.2.2.2 (by simpa using e))

theorem Receiver.Sound.enterHunt {r : Receiver} (noStop : r.stopPending = false) (l : Level) : (r.enterHunt l).Sound :=
  .of_hunt rfl (by simp [Receiver.enterHunt]) noStop (by simp [Receiver.enterHunt])

/-- The outcomes after which a pending stop is carried out: the receiver is OFF before it is looked at again (R15). -/
def RxOut.endsFrame : RxOut → Bool
  | .character _ | .breakFound => true
  | .nothing | .settled | .fall | .validated | .falseStart | .breakEnded _ | .idleRose _ => false

theorem Receiver.sampleSettle_sound {r : Receiver} (h : r.Sound) (settle : r.state = .settle) (l : Level) :
    (r.sampleSettle l).1.Sound := by
  have noStop := h.no_stop (by simp [settle])
  have noStart := h.no_start (by simp [settle])
  have noAwait := h.no_await (by simp [settle])
  cases l with
  | space =>
    rw [Receiver.sampleSettle_space]
    exact ⟨by simp, by simp, fun _ => by simp, by simp [noStop], by simp [noStart], by simp [noAwait]⟩
  | mark =>
    rcases Nat.lt_or_ge r.markRun 191 with run | run
    · rw [Receiver.sampleSettle_mark run]
      exact ⟨by dsimp only; omega, by simp [settle], fun _ => ⟨by dsimp only; omega, rfl⟩, by simp [noStop],
        by simp [noStart], by simp [noAwait]⟩
    · rw [Receiver.sampleSettle_last run]
      exact .of_hunt rfl (by simp [Receiver.settled]) noStop (by simp [Receiver.settled])

theorem Receiver.countMark_sound {r : Receiver} (h : r.Sound) (hunt : r.state = .hunt) : r.countMark.1.Sound := by
  have noStop := h.no_stop (by simp [hunt])
  obtain ⟨idle, -, -, -, start, -⟩ := h
  rcases Nat.lt_or_ge r.idleSamples 15 with few | many
  · rw [Receiver.countMark_few few]
    exact .of_hunt hunt idle noStop fun p => (start p).2
  · rcases Nat.lt_or_ge r.idle 255 with below | full
    · rw [Receiver.countMark_rise many below]
      exact .of_hunt hunt (by dsimp only; omega) noStop fun p => (start p).2
    · rw [Receiver.countMark_full many full]
      exact .of_hunt hunt idle noStop fun p => (start p).2

theorem Receiver.sampleHunt_sound {r : Receiver} (h : r.Sound) (hunt : r.state = .hunt) (x : RxContext) (l : Level) :
    (r.sampleHunt x l).1.Sound := by
  have noStop := h.no_stop (by simp [hunt])
  obtain ⟨idle, -, -, -, start, -⟩ := id h
  cases pending : r.startPending with
  | true =>
    have noAwait := (start pending).2
    rw [Receiver.sampleHunt_of_pending pending]
    by_cases few : r.frameSamples + 1 < 9
    · rw [Receiver.samplePending_few few]
      exact h.congr rfl rfl rfl rfl rfl rfl
    · cases vote : majority ⟨r.vote7, r.vote8, l⟩ with
      | space =>
        rw [Receiver.samplePending_space few vote]
        exact .of_busy (.inl rfl) rfl (fun _ => rfl) rfl noAwait
      | mark =>
        rw [Receiver.samplePending_mark few vote]
        exact .of_hunt hunt idle noStop (by simp)
  | false =>
    cases l with
    | mark =>
      rw [Receiver.sampleHunt_mark pending]
      exact Receiver.countMark_sound (.of_hunt hunt idle noStop fun _ => rfl) hunt
    | space =>
      by_cases seen : r.awaitingMark = false ∧ r.level = .mark
      · rw [Receiver.sampleHunt_fall pending seen]
        exact .of_hunt hunt idle noStop fun _ => seen.1
      · rw [Receiver.sampleHunt_space pending seen]
        exact h.congr rfl rfl rfl rfl rfl rfl

theorem Receiver.sampleChar_sound {r : Receiver} (h : r.Sound) (char : r.state = .char) (c : LineSettings) (l : Level)
    (goes : (r.sampleChar c l).2.endsFrame = true → r.stopPending = false) : (r.sampleChar c l).1.Sound := by
  have noStart := h.no_start (by simp [char])
  have noAwait := h.no_await (by simp [char])
  have idle : r.idle = 0 := h.2.1 (by simp [char])
  by_cases decides : r.decides c
  · by_cases last : slotOf (r.frameSamples + 1) = firstStopSlot c ∧ allSpace (r.decided l).slots = true
    · rw [Receiver.sampleChar_break decides last.1 last.2] at goes ⊢
      have noStop := goes rfl
      exact .of_busy (.inr rfl) idle (fun p => absurd (noStop.symm.trans p) (by simp)) noStart
        noAwait
    · rw [Receiver.sampleChar_decide decides last]
      exact h.congr rfl rfl rfl rfl rfl rfl
  · by_cases ends : r.ends c
    · rw [Receiver.sampleChar_end ends] at goes ⊢
      exact .enterHunt (goes rfl) l
    · rw [Receiver.sampleChar_between decides ends]
      exact h.congr rfl rfl rfl rfl rfl rfl

theorem Receiver.sampleBreak_sound {r : Receiver} (h : r.Sound) (hold : r.state = .breakHold) (l : Level) :
    (r.sampleBreak l).1.Sound := by
  have noStop := h.no_stop (by simp [hold])
  have noStart := h.no_start (by simp [hold])
  have noAwait := h.no_await (by simp [hold])
  have idle : r.idle = 0 := h.2.1 (by simp [hold])
  have held : ∀ t : Receiver, t.state = r.state → t.idle = r.idle → t.stopPending = r.stopPending →
      t.startPending = r.startPending → t.awaitingMark = r.awaitingMark → t.Sound := fun t e1 e2 e3 e4 e5 =>
    .of_busy (.inr (e1.trans hold)) (e2.trans idle) (fun p => by simp [e3, noStop] at p) (e4.trans noStart)
      (e5.trans noAwait)
  cases l with
  | space => rw [Receiver.sampleBreak_space]; exact held _ rfl rfl rfl rfl rfl
  | mark =>
    rcases Nat.lt_or_ge r.markRun 7 with run | run
    · rw [Receiver.sampleBreak_mark run]; exact held _ rfl rfl rfl rfl rfl
    · rw [Receiver.sampleBreak_end run]; exact .enterHunt noStop _

theorem Receiver.sample_sound {r : Receiver} (h : r.Sound) (c : LineSettings) (x : RxContext) (l : Level)
    (goes : (r.sample c x l).2.endsFrame = true → r.stopPending = false) : (r.sample c x l).1.Sound := by
  cases state : r.state with
  | off => rw [Receiver.sample_of_off state]; exact h
  | settle => rw [Receiver.sample_of_settle state]; exact Receiver.sampleSettle_sound h state l
  | hunt => rw [Receiver.sample_of_hunt state]; exact Receiver.sampleHunt_sound h state x l
  | char =>
    rw [Receiver.sample_of_char state] at goes ⊢
    exact Receiver.sampleChar_sound h state c l goes
  | breakHold => rw [Receiver.sample_of_breakHold state]; exact Receiver.sampleBreak_sound h state l

theorem Receiver.sampleHunt_running {r : Receiver} (hunt : r.state = .hunt) (x : RxContext) (l : Level) :
    (r.sampleHunt x l).1.Running := by
  have stays : ∀ t : Receiver, t.state = r.state → t.Running := fun t e => by simp [Receiver.Running, e, hunt]
  cases pending : r.startPending with
  | true =>
    rw [Receiver.sampleHunt_of_pending pending]
    by_cases few : r.frameSamples + 1 < 9
    · rw [Receiver.samplePending_few few]; exact stays _ rfl
    · cases vote : majority ⟨r.vote7, r.vote8, l⟩ with
      | space => rw [Receiver.samplePending_space few vote]; simp [Receiver.Running, Receiver.validate]
      | mark => rw [Receiver.samplePending_mark few vote]; exact stays _ rfl
  | false =>
    cases l with
    | mark =>
      rw [Receiver.sampleHunt_mark pending]
      unfold Receiver.countMark
      split_ifs <;> exact stays _ rfl
    | space =>
      by_cases seen : r.awaitingMark = false ∧ r.level = .mark
      · rw [Receiver.sampleHunt_fall pending seen]; exact stays _ rfl
      · rw [Receiver.sampleHunt_space pending seen]; exact stays _ rfl

/-- A sample never brings a running receiver to OFF or SETTLE. -/
theorem Receiver.Running.sample {r : Receiver} (running : r.Running) (c : LineSettings) (x : RxContext) (l : Level) :
    (r.sample c x l).1.Running := by
  cases state : r.state with
  | off => exact absurd state running.1
  | settle => exact absurd state running.2
  | hunt => rw [Receiver.sample_of_hunt state]; exact Receiver.sampleHunt_running state x l
  | char =>
    have stays : ∀ t : Receiver, t.state = r.state → t.Running := fun t e => by simp [Receiver.Running, e, state]
    rw [Receiver.sample_of_char state]
    by_cases decides : r.decides c
    · by_cases last : slotOf (r.frameSamples + 1) = firstStopSlot c ∧ allSpace (r.decided l).slots = true
      · rw [Receiver.sampleChar_break decides last.1 last.2]; simp [Receiver.Running, Receiver.inBreak]
      · rw [Receiver.sampleChar_decide decides last]; exact stays _ rfl
    · by_cases ends : r.ends c
      · rw [Receiver.sampleChar_end ends]; simp [Receiver.Running, Receiver.enterHunt]
      · rw [Receiver.sampleChar_between decides ends]; exact stays _ rfl
  | breakHold =>
    have stays : ∀ t : Receiver, t.state = r.state → t.Running := fun t e => by simp [Receiver.Running, e, state]
    rw [Receiver.sample_of_breakHold state]
    cases l with
    | space => rw [Receiver.sampleBreak_space]; exact stays _ rfl
    | mark =>
      rcases Nat.lt_or_ge r.markRun 7 with run | run
      · rw [Receiver.sampleBreak_mark run]; exact stays _ rfl
      · rw [Receiver.sampleBreak_end run]; simp [Receiver.Running, Receiver.enterHunt]

theorem Receiver.sampleSettle_endsFrame (r : Receiver) (l : Level) : (r.sampleSettle l).2.endsFrame = false := by
  cases l with
  | space => rfl
  | mark =>
    rcases Nat.lt_or_ge r.markRun 191 with run | run
    · rw [Receiver.sampleSettle_mark run]; rfl
    · rw [Receiver.sampleSettle_last run]; rfl

theorem Receiver.sampleHunt_endsFrame (r : Receiver) (x : RxContext) (l : Level) :
    (r.sampleHunt x l).2.endsFrame = false := by
  cases pending : r.startPending with
  | true =>
    rw [Receiver.sampleHunt_of_pending pending]
    by_cases few : r.frameSamples + 1 < 9
    · rw [Receiver.samplePending_few few]; rfl
    · cases vote : majority ⟨r.vote7, r.vote8, l⟩ with
      | space => rw [Receiver.samplePending_space few vote]; rfl
      | mark => rw [Receiver.samplePending_mark few vote]; rfl
  | false =>
    cases l with
    | mark =>
      rw [Receiver.sampleHunt_mark pending]
      unfold Receiver.countMark
      split_ifs <;> rfl
    | space =>
      by_cases seen : r.awaitingMark = false ∧ r.level = .mark
      · rw [Receiver.sampleHunt_fall pending seen]; rfl
      · rw [Receiver.sampleHunt_space pending seen]; rfl

theorem Receiver.sampleBreak_endsFrame (r : Receiver) (l : Level) : (r.sampleBreak l).2.endsFrame = false := by
  cases l with
  | space => rfl
  | mark =>
    rcases Nat.lt_or_ge r.markRun 7 with run | run
    · rw [Receiver.sampleBreak_mark run]; rfl
    · rw [Receiver.sampleBreak_end run]; rfl

/-- A character or a break is found by a receiver in CHAR only. -/
theorem Receiver.sample_endsFrame {r : Receiver} {c : LineSettings} {x : RxContext} {l : Level}
    (h : (r.sample c x l).2.endsFrame = true) : r.state = .char := by
  cases state : r.state with
  | char => rfl
  | off => rw [Receiver.sample_of_off state] at h; cases h
  | settle => rw [Receiver.sample_of_settle state, Receiver.sampleSettle_endsFrame] at h; cases h
  | hunt => rw [Receiver.sample_of_hunt state, Receiver.sampleHunt_endsFrame] at h; cases h
  | breakHold => rw [Receiver.sample_of_breakHold state, Receiver.sampleBreak_endsFrame] at h; cases h

/-! ### A sample in the part -/

theorem Receiver.Running.of_char {r : Receiver} (h : r.state = .char) : r.Running := by simp [Receiver.Running, h]

/-- A sample replaces the receiver: it stays sound, and it runs or the assembler is CLOSED. -/
theorem Quiet.setSampled (s : State) (i : LineId) (l : Level)
    (goes : (sampled s i l).2.endsFrame = true → (s.line i).rx.stopPending = false) :
    Quiet s (s.setRx i (sampled s i l).1) := by
  refine .setRx s i fun sound closed => ⟨Receiver.sample_sound sound _ _ l goes, fun off => closed ?_⟩
  by_contra running
  have runs : (s.line i).rx.Running := by simpa [Receiver.Running] using running
  obtain ⟨notOff, notSettle⟩ := runs.sample (s.line i).cfg (s.rxContext i) l
  exact off.elim notOff notSettle

/-- A stop carried out after the frame: what is handed over does not read the receiver (R15). -/
theorem enterOff_of_ignoresRx {i : LineId} {f : State → State} (h : IgnoresRx i f) (s : State) (r : Receiver) :
    enterOff (f (s.setRx i r)) i = enterOff (f s) i := by
  rw [h, enterOff, State.setRx_setRx]
  rfl

theorem Moves.takeSample (s : State) (i : LineId) (l : Level) : Moves s (takeSample s i l) := by
  unfold Machine.takeSample
  dsimp only
  cases stopping : (s.line i).rx.stopPending with
  | false =>
    have set : Moves s (s.setRx i (sampled s i l).1) := (Quiet.setSampled s i l fun _ => stopping).moves
    cases out : (sampled s i l).2 with
    | nothing | settled | validated => exact set
    | fall => exact set.trans (Quiet.fallSeen _ i).moves
    | falseStart => exact set.trans (Quiet.reportFalseStart _ i).moves
    | character ch =>
      refine set.trans (.handCharacter ?_ ch)
      have char : (s.line i).rx.state = .char :=
        Receiver.sample_endsFrame (show (sampled s i l).2.endsFrame = true by rw [out]; rfl)
      rw [State.line_setRx_same]
      exact (Receiver.Running.of_char char).sample _ _ l
    | breakFound => exact set
    | breakEnded b => exact set.trans (.handBreak _ i b)
    | idleRose n =>
      simp only [afterSample]
      split_ifs
      · exact set.trans (.completeOpen _ i .gap)
      · exact set
  | true =>
    by_cases ends : (sampled s i l).2.endsFrame = true
    · have char : (s.line i).rx.state = .char := Receiver.sample_endsFrame ends
      cases out : (sampled s i l).2 with
      | character ch =>
        simp only [afterSample, afterHandover, if_true]
        rw [enterOff_of_ignoresRx (IgnoresRx.handCharacter i ch)]
        exact (Moves.handCharacter (.of_char char) ch).trans (.enterOff _ i)
      | breakFound =>
        simp only [afterSample, if_true]
        rw [enterOff_of_ignoresRx (IgnoresRx.handBreak i _)]
        exact (Moves.handBreak s i _).trans (.enterOff _ i)
      | nothing | settled | fall | validated | falseStart | breakEnded | idleRose =>
        rw [out] at ends
        cases ends
    · have set : Moves s (s.setRx i (sampled s i l).1) := (Quiet.setSampled s i l fun e => absurd e ends).moves
      cases out : (sampled s i l).2 with
      | nothing | settled | validated => exact set
      | fall => exact set.trans (Quiet.fallSeen _ i).moves
      | falseStart => exact set.trans (Quiet.reportFalseStart _ i).moves
      | character ch => rw [out] at ends; exact absurd rfl ends
      | breakFound => rw [out] at ends; exact absurd rfl ends
      | breakEnded b => exact set.trans (.handBreak _ i b)
      | idleRose n =>
        simp only [afterSample]
        split_ifs
        · exact set.trans (.completeOpen _ i .gap)
        · exact set

theorem Moves.sampleIf (s : State) (i : LineId) (l : Level) (named : RxOut → Bool) : Moves s (sampleIf s i l named) := by
  unfold Machine.sampleIf
  split_ifs
  · exact .takeSample s i l
  · exact .refl s

/-- A sample whose outcome is none of the frame's ends and reaches no assembler writes no record. -/
theorem Quiet.sampleIf (s : State) (i : LineId) (l : Level) {named : RxOut → Bool}
    (quiet : ∀ o, named o = true → o = .settled ∨ o = .fall ∨ o = .validated ∨ o = .falseStart) :
    Quiet s (sampleIf s i l named) := by
  unfold Machine.sampleIf
  split_ifs with h
  · have out := quiet _ h
    have set : Quiet s (s.setRx i (sampled s i l).1) :=
      Quiet.setSampled s i l fun e => by rcases out with o | o | o | o <;> rw [o] at e <;> cases e
    unfold takeSample
    dsimp only
    rcases out with o | o | o | o <;> rw [o]
    · exact set
    · exact set.trans (.fallSeen _ i)
    · exact set
    · exact set.trans (.reportFalseStart _ i)
  · exact .refl s

/-! ### The lines' requests -/

theorem Runs.withLine {p : ActKind → Prop} {s : State} {act : LineId → Answer} (h : ∀ i, Runs p s (act i).state)
    (b : Byte) : Runs p s (withLine s b act).state := by
  unfold Machine.withLine
  split
  · exact .refl s
  · exact h _

theorem inRange_eq_some {lo hi n k : Nat} (h : inRange lo hi n = some k) : n = k ∧ lo ≤ n ∧ n ≤ hi := by
  unfold inRange at h
  split_ifs at h with inside
  exact ⟨Option.some.inj h, inside⟩

/-- Settings read from a payload are in their ranges (R1, R19, R148). -/
theorem parseLineSettings_inRange {bytes : List Byte} {c : LineSettings} (h : parseLineSettings bytes = some c) :
    c.InRange := by
  unfold parseLineSettings at h
  split at h
  · next d0 d1 fmt stop order sense mode gap m0 m1 region dflt permit access hold =>
    simp only [Option.bind_eq_bind, Option.bind_eq_some_iff, Option.pure_def, Option.some.injEq] at h
    obtain ⟨divisor, hd, _, -, _, -, _, -, _, -, _, -, gapThreshold, hg, maxLength, hm, _, -, _, -, _, -, turn, ht,
      rfl⟩ := h
    obtain ⟨rfl, -, top⟩ := inRange_eq_some hd
    obtain ⟨rfl, g1, g2⟩ := inRange_eq_some hg
    obtain ⟨rfl, m1, m2⟩ := inRange_eq_some hm
    obtain ⟨rfl, t1, t2⟩ := inRange_eq_some ht
    have access := access.isLt
    exact ⟨top, g1, g2, m1, m2, by dsimp only; omega, t1, t2⟩
  · cases h

theorem Quiet.lineConfig (s : State) (i : LineId) (bytes : List Byte) : Quiet s (lineConfig s i bytes).state := by
  unfold Machine.lineConfig
  split_ifs
  · exact .refl s
  · split
    · exact .refl s
    · next c parsed =>
      exact .setLine s i ⟨fun r c => ⟨r, c⟩, id, fun h => ⟨parseLineSettings_inRange parsed, h.2⟩⟩

theorem Quiet.lineStart (s : State) (i : LineId) : Quiet s (lineStart s i).state := by
  unfold Machine.lineStart
  split_ifs with off
  · exact .setRx s i fun _ closed => ⟨by simp [Receiver.Sound, Receiver.off], fun _ => closed (.inl off)⟩
  · exact .refl s

theorem Quiet.lineReset (s : State) (i : LineId) : Quiet s (lineReset s i).state := by
  rw [lineReset_eq]
  refine .setLine s i ⟨fun _ _ => ⟨?_, fun _ => rfl⟩, TxUnit.Sound.afterLineReset, fun h => ⟨h.1, fun m e => by cases e⟩⟩
  simp [Receiver.Sound, Receiver.off, Line.afterLineReset]

theorem Moves.stopReceiver (s : State) (i : LineId) : Moves s (stopReceiver s i) := by
  unfold Machine.stopReceiver
  dsimp only
  split
  · exact .refl s
  · exact .enterOff s i
  · exact .enterOff s i
  · next char =>
    refine (Quiet.setRx s i (r := { (s.line i).rx with stopPending := true })
      fun sound closed => ⟨?_, closed⟩).moves
    exact .of_busy (.inl char) (sound.2.1 (by simp [char])) (fun _ => char) (sound.no_start (by simp [char]))
      (sound.no_await (by simp [char]))
  · exact (Moves.handBreak s i _).trans (.enterOff _ i)

theorem Moves.stopLine (s : State) (i : LineId) : Moves s (stopLine s i) := by
  have used := (Quiet.useFree s).moves
  unfold Machine.stopLine
  split_ifs
  · exact (used.trans (Quiet.flushTx _ i).moves).trans (.stopReceiver _ i)
  · exact (used.trans (.stopReceiver _ i)).trans (Quiet.flushTx _ i).moves
  · exact (Quiet.flushTx s i).moves.trans (.stopReceiver _ i)

theorem Moves.lineStop (s : State) (i : LineId) : Moves s (lineStop s i).state := by
  unfold Machine.lineStop
  dsimp only
  split_ifs
  · exact .refl s
  · exact .refl s
  · exact .stopLine s i

theorem Quiet.sendRequest (s : State) (i : LineId) (a b c : Byte) (data : List Byte) :
    Quiet s (sendRequest s i a b c data).state := by
  unfold Machine.sendRequest
  dsimp only
  split_ifs with off range full
  · exact .refl s
  · exact .refl s
  · exact .refl s
  · have room : (s.line i).tx.queue.length < 4 := Nat.lt_of_not_le full
    exact .setTx s i fun h => h.enqueue room _

theorem Quiet.cannedWrite (s : State) (a b c d e : Byte) (data : List Byte) :
    Quiet s (cannedWrite s a b c d e data).state := by
  unfold Machine.cannedWrite
  split
  · dsimp only
    split_ifs
    · exact .refl s
    · exact .setCanned s _ _
    · exact .setCanned s _ _
  · exact .refl s

end Sys2Proof.Machine

/-! PROOFS. The host link, the capture store's requests and STATS_READ as runs of acts, and then every command. -/

namespace Sys2Proof.Machine

/-! ### The link's receiver (R165 to R169) -/

theorem Quiet.setBytes (s : State) (r : ByteReceiver) : Quiet s (s.setLink { s.link with bytes := r }) :=
  .setLink s ⟨id, id, id⟩

/-- The frame receiver hunts again. -/
theorem Quiet.huntAgain (s : State) : Quiet s (s.setFrameRx .hunt) :=
  .setLink s ⟨id, fun h => ⟨h.1, fun _ => rfl⟩, id⟩

/-- Inside a frame fewer than five busy replies wait. -/
theorem Quiet.setFrameRx (s : State) {r : FrameRx} (inside : s.link.BusyBounded → s.link.busyCount ≤ 4) :
    Quiet s (s.setFrameRx r) :=
  .setLink s ⟨id, fun h => ⟨h.1, fun five => by
    have few : s.link.busyCount ≤ 4 := inside h
    have all : s.link.busyCount = 5 := five
    omega⟩, id⟩

theorem Link.BusyBounded.few {k : Link} (h : k.BusyBounded) (inside : k.rx ≠ .hunt) : k.busyCount ≤ 4 := by
  have notFive : k.busyCount ≠ 5 := fun e => inside (h.2 e)
  have := h.1
  omega

theorem Quiet.countFrame (s : State) : Quiet s (s.reportLink fun g => { g with framesOk := inc32 g.framesOk }) :=
  .reportLink s (by simp [LinkStats.atMost, inc32, le_satInc])

theorem Quiet.countBusy (s : State) :
    Quiet s (s.reportLink fun g => { g with busyRefusals := inc32 g.busyRefusals }) :=
  .reportLink s (by simp [LinkStats.atMost, inc32, le_satInc])

theorem Quiet.countCheck (s : State) :
    Quiet s (s.reportLink fun g => { g with checkErrors := inc32 g.checkErrors }) :=
  .reportLink s (by simp [LinkStats.atMost, inc32, le_satInc])

theorem Quiet.countLength (s : State) :
    Quiet s (s.reportLink fun g => { g with lengthErrors := inc32 g.lengthErrors }) :=
  .reportLink s (by simp [LinkStats.atMost, inc32, le_satInc])

theorem Quiet.countTimeout (s : State) : Quiet s (s.reportLink fun g => { g with timeouts := inc32 g.timeouts }) :=
  .reportLink s (by simp [LinkStats.atMost, inc32, le_satInc])

theorem Link.Keeps.addBusy (k : Link) (r : Reply) (inside : k.rx ≠ .hunt) :
    k.Keeps (({ k with rx := .hunt } : Link).addReply r) where
  buffer := by rw [Link.addReply_buffer]; exact id
  busy := fun h => Link.busyBounded_addReply (k := { k with rx := .hunt }) (h.few inside) rfl
  notices := (Link.Keeps.choose { k with rx := .hunt, replies := k.replies ++ [r] }).notices

/-- A whole frame with a good check: it joins the buffer or is answered BUSY (R169). -/
theorem Quiet.handFrame {s : State} (inside : s.link.rx ≠ .hunt) (req : Request) :
    Quiet s ((s.setFrameRx .hunt).handFrame req) := by
  have counted := Quiet.countFrame s
  unfold State.handFrame
  dsimp only
  split_ifs with room
  · have place : s.link.buffer.length < 2 := room
    refine counted.trans (Quiet.setLink _ (k := { s.link with
      rx := .hunt, buffer := s.link.buffer ++ [{ request := req, inHandling := false }] })
      ⟨fun _ => ?_, fun h => ⟨h.1, fun _ => rfl⟩, id⟩)
    simp only [List.length_append, List.length_singleton]
    omega
  · exact (counted.trans (Quiet.countBusy _)).trans (Quiet.setLink _ (.addBusy s.link _ inside))

theorem Quiet.badCheck (s : State) : Quiet s s.badCheck := (Quiet.countCheck s).trans (.raise _ _)

theorem Quiet.judgeFrame {s : State} (inside : s.link.rx ≠ .hunt) (low high : Byte) (got : List Byte) :
    Quiet s (s.judgeFrame low high got) := by
  unfold State.judgeFrame
  dsimp only
  split_ifs
  · split
    · exact .handFrame inside _
    · exact .huntAgain s
  · exact (Quiet.huntAgain s).trans (.badCheck _)

theorem Quiet.takeByte (s : State) (b : Byte) : Quiet s (s.takeByte b) := by
  unfold State.takeByte
  split
  · split_ifs with sync
    · refine .setFrameRx s fun _ => ?_
      have free := sync.2
      simp only [Link.syncHeld, Config.busyHoldOff, Bool.or_eq_false_iff] at free
      exact (Nat.lt_of_not_le (of_decide_eq_false free.1)).le
    · exact .refl s
  · next h => exact .setFrameRx s fun busy => busy.few (by simp [h])
  · next low h =>
    split_ifs
    · exact (Quiet.countLength s).trans (.huntAgain _)
    · exact .setFrameRx s fun busy => busy.few (by simp [h])
  · next low high got h =>
    split_ifs
    · exact .setFrameRx s fun busy => busy.few (by simp [h])
    · exact .judgeFrame (by simp [h]) _ _ _

theorem Quiet.takeLinkSample (s : State) (p : PinLevel) : Quiet s (s.takeLinkSample p) := by
  unfold State.takeLinkSample
  cases (s.link.bytes.sample (Sense.normal.apply p)) with
  | mk r byte =>
    cases byte with
    | none => exact .setBytes s r
    | some b => exact (Quiet.setBytes s r).trans (.takeByte _ b)

theorem Quiet.takeLinkSamples (s : State) (ps : List PinLevel) : Quiet s (s.takeLinkSamples ps) := by
  induction ps generalizing s with
  | nil => exact .refl s
  | cons p t ih => exact (Quiet.takeLinkSample s p).trans (ih _)

theorem Quiet.frameTimeout (s : State) : Quiet s s.frameTimeout := by
  unfold State.frameTimeout
  split
  · exact .refl s
  all_goals exact (Quiet.countTimeout s).trans (.huntAgain _)

theorem Link.Keeps.finishFrame (k : Link) : k.Keeps k.finishFrame := by
  have freed : ∀ b : List Buffered, b.length ≤ k.buffer.length →
      k.Keeps ({ k with buffer := b, wire := none } : Link).choose := fun b less =>
    Link.Keeps.trans (b := { k with buffer := b, wire := none }) ⟨less.trans, id, id⟩ (.choose _)
  unfold Link.finishFrame
  refine freed _ ?_
  split
  · split_ifs
    · simp
    · exact le_refl _
  all_goals exact le_refl _

theorem Quiet.noticeMask (s : State) (m : Byte) : Quiet s (noticeMask s m).state := by
  unfold Machine.noticeMask
  split_ifs
  · exact .refl s
  · exact .setLink s ⟨id, id, fun h => h.sublist (List.filter_sublist.map _)⟩

theorem Quiet.resetRequest (s : State) : Quiet s (resetRequest s).state :=
  .setLink s ⟨id, fun h => ⟨h.1, fun _ => rfl⟩, id⟩

theorem Quiet.serveUnknown (s : State) (req : Request) : Quiet s (serveUnknown s req) := by
  unfold Machine.serveUnknown
  rw [takeRequest_eq]
  cases canTake s req with
  | false => exact .refl s
  | true => exact (Quiet.taken s req).trans (.placeReply _ _ (by simp))

/-! ### The filter table's requests -/

theorem Quiet.filterWrite (s : State) (b : Byte) (bytes : List Byte) : Quiet s (filterWrite s b bytes).state := by
  unfold Machine.filterWrite
  split
  · exact .refl s
  · next i _ =>
    split_ifs
    · exact .refl s
    · split
      · exact .refl s
      · refine .of_act (.filters _ (.inl rfl) fun _ e => ?_)
        by_cases h : i = e
        · subst h; simp [State.filter]
        · have h' : i.val ≠ e.val := fun v => h (Fin.ext v)
          simp [h', State.filter]

theorem Quiet.filterEnable (s : State) (a b : BitVec 32) : Quiet s (filterEnable s a b).state := by
  unfold Machine.filterEnable
  split_ifs
  · exact .refl s
  · exact .of_act (.filters _ (.inl rfl) fun _ e => by simp [State.filter, Filter.enableBy])

/-! ### The capture store's requests -/

theorem Quiet.setRegion (s : State) (id : RegionId) {r : Region} (h : (s.region id).Keeps s.store.mem r)
    (rises : (s.region id).atMost r) : Quiet s (s.setRegion id r) :=
  .of_act (.region id r (.inl rfl) h fun _ => rises)

theorem Runs.withRegion {p : ActKind → Prop} {s : State} {act : RegionId → Answer} (h : ∀ id, Runs p s (act id).state)
    (b : Byte) : Runs p s (withRegion s b act).state := by
  unfold Machine.withRegion
  split
  · exact .refl s
  · exact h _

/-- The same ring in another state of a placed region. -/
theorem Region.Keeps.of_state {m : List Host.Cell} {r n : Region} (base : n.base = r.base) (size : n.size = r.size)
    (disabled : n.state = .disabled ↔ r.state = .disabled) (head : n.head = r.head) (cursor : n.cursor = r.cursor)
    (tail : n.tail = r.tail) (used : n.used = r.used) (unread : n.unread = r.unread) (count : n.count = r.count)
    (sound : r.Sound → n.Sound) : r.Keeps m n :=
  ⟨base, size, disabled, sound, fun _ _ h => h.congr base size head cursor tail used unread count⟩

theorem Quiet.regionStart (s : State) (id : RegionId) (m : Byte) (q : Nat) : Quiet s (regionStart s id m q).state := by
  unfold Machine.regionStart
  dsimp only
  split_ifs with mode stopped run trig
  · exact .refl s
  · exact .refl s
  · have on : (s.region id).state = .stopped := not_not.1 stopped
    refine .setRegion s id (.of_state rfl rfl (by simp [on]) rfl rfl rfl rfl rfl rfl fun sound => ?_)
      (Region.atMost_refl _)
    obtain ⟨h1, h2, h3, h4, -, -⟩ := sound
    exact ⟨by rw [← h1]; simp [on], fun _ => h2 (by simp [on]), h3, h4, by simp, by simp⟩
  · exact .refl s
  · have on : (s.region id).state = .stopped := not_not.1 stopped
    refine .setRegion s id (.of_state rfl rfl (by simp [on]) rfl rfl rfl rfl rfl rfl fun sound => ?_)
      (Region.atMost_refl _)
    obtain ⟨h1, h2, h3, h4, -, -⟩ := sound
    exact ⟨by rw [← h1]; simp [on], fun _ => h2 (by simp [on]), h3, h4, fun _ => by simpa using trig, by simp⟩

theorem Quiet.regionStop (s : State) (id : RegionId) : Quiet s (regionStop s id).state := by
  unfold Machine.regionStop
  dsimp only
  split_ifs with off
  · exact .refl s
  · refine .setRegion s id (.of_state rfl rfl (by simp [off]) rfl rfl rfl rfl rfl rfl fun sound => ?_)
      (Region.atMost_refl _)
    obtain ⟨h1, h2, h3, h4, -, -⟩ := sound
    exact ⟨by rw [← h1]; simp [off], fun _ => h2 off, h3, h4, by simp, by simp⟩

/-- An emptied region is a ring of no record, whatever the memory holds. -/
theorem Region.whole_of_empty {r : Region} (m : List Host.Cell) (head : r.head = 0) (cursor : r.cursor = 0)
    (tail : r.tail = 0) (used : r.used = 0) (unread : r.unread = 0) (count : r.count = 0) : r.Whole m :=
  (Region.whole_iff _ _).2 ⟨⟨[], [], .of_empty m head cursor used unread count⟩, by
    simp [head, tail, used, Region.advance]⟩

/-- An emptied region in a state that takes no record is sound where it is placed. -/
theorem Region.sound_of_empty {r : Region} (resting : r.state = .stopped) (two : 2 ≤ r.size)
    (inside : r.base + r.size ≤ 256) (head : r.head = 0) (cursor : r.cursor = 0) (tail : r.tail = 0)
    (used : r.used = 0) (crossed : r.crossed = false) : r.Sound := by
  have pos : 0 < r.words := by simp only [Region.words, Config.blockWords]; omega
  refine ⟨?_, fun _ => ⟨two, inside, by rw [head]; exact pos, by rw [cursor]; exact pos, by rw [tail]; exact pos⟩,
    by rw [used]; exact Nat.zero_le _, ?_, by simp [resting], by simp [resting]⟩
  · simp only [resting, reduceCtorEq, false_iff]; omega
  · simp only [crossed, used, Bool.false_eq_true, false_iff]; omega

theorem Quiet.regionClear (s : State) (id : RegionId) : Quiet s (regionClear s id).state := by
  unfold Machine.regionClear
  dsimp only
  split_ifs with off
  · exact .refl s
  · refine .setRegion s id ⟨rfl, rfl, by simp [off], fun sound => ?_, fun _ _ _ =>
      Region.whole_of_empty _ rfl rfl rfl rfl rfl rfl⟩ (Region.atMost_refl _)
    obtain ⟨two, inside, -⟩ := sound.2.1 off
    exact Region.sound_of_empty rfl two inside rfl rfl rfl rfl rfl

theorem Quiet.regionRewind (s : State) (id : RegionId) : Quiet s (regionRewind s id).state := by
  unfold Machine.regionRewind
  dsimp only
  split_ifs with off
  · exact .refl s
  · refine .setRegion s id ⟨rfl, rfl, Iff.rfl, fun sound => ?_, fun sound on whole => ?_⟩ (Region.atMost_refl _)
    · obtain ⟨h1, h2, h3, h4, h5, h6⟩ := sound
      exact ⟨h1, fun on => ⟨(h2 on).1, (h2 on).2.1, (h2 on).2.2.1, (h2 on).2.2.1, (h2 on).2.2.2.2⟩, h3, h4, h5, h6⟩
    · obtain ⟨⟨read, unread, holds⟩, tail⟩ := (Region.whole_iff _ _).1 whole
      have head := (sound.2.1 on).2.2.1
      refine (Region.whole_iff _ _).2 ⟨⟨[], read ++ unread, ?_⟩, tail⟩
      exact ⟨(Region.chain_congr (r := s.region id) (t := (s.region id).rewind) rfl rfl _ _).2 holds.chain,
        holds.count, holds.used, holds.used, (Region.advance_zero head).symm⟩

/-- Reading moves the cursor and the unread words alone. -/
theorem Region.readFrom_region (m : List Host.Cell) (n : Nat) (r : Region) (room : Nat) :
    (Region.readFrom m n r room).region =
      { r with cursor := (Region.readFrom m n r room).region.cursor
               unread := (Region.readFrom m n r room).region.unread } := by
  induction n generalizing r room with
  | zero => rfl
  | succ n ih =>
    rw [Region.readFrom]
    dsimp only
    split_ifs
    · rfl
    · conv_lhs => rw [ih]

theorem Region.readFrom_cursor_lt (m : List Host.Cell) (n : Nat) {r : Region} (h : r.cursor < r.words) (room : Nat) :
    (Region.readFrom m n r room).region.cursor < r.words := by
  induction n generalizing r room with
  | zero => exact h
  | succ n ih =>
    rw [Region.readFrom]
    dsimp only
    split_ifs
    · exact h
    · exact ih (r := { r with cursor := r.advance r.cursor (headerSize (r.headerAt m r.cursor))
                              unread := r.unread - headerSize (r.headerAt m r.cursor) })
        (Region.advance_lt_of_lt h _ _) _

theorem sum_take_add_drop (l : List Nat) (k : Nat) : (l.take k).sum + (l.drop k).sum = l.sum := by
  rw [← List.sum_append, List.take_append_drop]

theorem Quiet.regionRead (s : State) (id : RegionId) (max : Nat) : Quiet s (regionRead s id max).state := by
  by_cases range : max < 288 ∨ 1020 < max ∨ max % 4 ≠ 0
  · rw [regionRead_of_range range]; exact .refl s
  by_cases off : (s.region id).state = .disabled
  · rw [regionRead_of_disabled range off]; exact .refl s
  · rw [regionRead_of_enabled range off rfl]
    refine .setRegion s id ⟨?_, ?_, ?_, fun sound => ?_, fun sound on whole => ?_⟩ ?_
    · rw [Region.readFrom_region]
    · rw [Region.readFrom_region]
    · rw [Region.readFrom_region]
    · obtain ⟨h1, h2, h3, h4, h5, h6⟩ := sound
      have cursor := Region.readFrom_cursor_lt s.store.mem (s.region id).count (h2 off).2.2.2.1 (max / 4)
      rw [Region.readFrom_region]
      exact ⟨h1, fun on => ⟨(h2 on).1, (h2 on).2.1, (h2 on).2.2.1, cursor, (h2 on).2.2.2.2⟩, h3, h4, h5, h6⟩
    · obtain ⟨⟨read, unread, holds⟩, tail⟩ := (Region.whole_iff _ _).1 whole
      obtain ⟨-, -, head, cursor, -⟩ := sound.2.1 on
      have chain : (s.region id).chain s.store.mem (s.region id).cursor unread := by
        rw [holds.cursor]; exact Region.chain_append read unread head holds.chain
      have enough : unread.length ≤ (s.region id).count := by rw [holds.count, List.length_append]; omega
      obtain ⟨k, -, -, -, e⟩ := Region.readFrom_eq _ enough cursor chain holds.unread (max / 4)
      rw [e]
      refine (Region.whole_iff _ _).2 ⟨⟨read ++ unread.take k, unread.drop k, ?_⟩, tail⟩
      have list : read ++ unread.take k ++ unread.drop k = read ++ unread := by
        rw [List.append_assoc, List.take_append_drop]
      refine ⟨?_, by rw [list]; exact holds.count, by rw [list]; exact holds.used, rfl, ?_⟩
      · rw [list]
        exact (Region.chain_congr (r := s.region id)
          (t := (s.region id).moveCursor (unread.take k).sum (unread.drop k).sum) rfl rfl _ _).2 holds.chain
      · show (s.region id).advance (s.region id).cursor (unread.take k).sum =
          (s.region id).advance (s.region id).head (read ++ unread.take k).sum
        rw [holds.cursor, Region.advance_advance, List.sum_append]
    · rw [Region.readFrom_region]; exact Region.atMost_refl _

theorem Region.SoundBut.freeHead {r : Region} (h : r.SoundBut) (on : r.state ≠ .disabled) (m : List Host.Cell) :
    (r.freeHead m).SoundBut := by
  obtain ⟨two, inside, head, cursor, tail⟩ := h.placed on
  refine ⟨h.disabled, fun _ => ⟨two, inside, Region.advance_lt_of_lt head _ _, cursor, tail⟩,
    (Nat.sub_le _ _).trans h.used, fun a => ?_, h.postfill⟩
  simp [Region.freeHead, h.armed a]

theorem Region.freeRead_keeps (m : List Host.Cell) (n : Nat) (r : Region) :
    (Region.freeRead m n r).1.base = r.base ∧ (Region.freeRead m n r).1.size = r.size ∧
      (Region.freeRead m n r).1.state = r.state ∧ r.atMost (Region.freeRead m n r).1 := by
  induction n generalizing r with
  | zero => exact ⟨rfl, rfl, rfl, Region.atMost_refl r⟩
  | succ n ih =>
    rw [Region.freeRead]
    split_ifs
    · exact ⟨rfl, rfl, rfl, Region.atMost_refl r⟩
    · exact ih (r.freeHead m)

theorem Region.SoundBut.freeRead {r : Region} (h : r.SoundBut) (on : r.state ≠ .disabled) (m : List Host.Cell)
    (n : Nat) : (Region.freeRead m n r).1.SoundBut := by
  induction n generalizing r with
  | zero => exact h
  | succ n ih =>
    rw [Region.freeRead]
    split_ifs
    · exact h
    · exact ih (h.freeHead on m) on

theorem Region.Whole.freeRead {m : List Host.Cell} {r : Region} (h : r.Whole m) (head : r.head < r.words) (n : Nat) :
    (Region.freeRead m n r).1.Whole m := by
  obtain ⟨⟨read, unread, holds⟩, tail⟩ := (Region.whole_iff _ _).1 h
  have count : min n read.length ≤ r.count := by rw [holds.count, List.length_append]; omega
  rw [holds.freeRead n]
  exact (h.discards head count).congr rfl rfl rfl rfl rfl rfl rfl rfl

theorem Quiet.regionRelease (s : State) (id : RegionId) (n : Nat) : Quiet s (regionRelease s id n).state := by
  by_cases off : (s.region id).state = .disabled
  · rw [regionRelease_of_disabled off]; exact .refl s
  · rw [regionRelease_of_enabled off n rfl]
    generalize (if n = 0 then (s.region id).count else n) = k
    have judged := Region.KeepsPlace.judgeThreshold id (Region.freeRead s.store.mem k (s.region id)).1
    obtain ⟨base, size, state, rises⟩ := Region.freeRead_keeps s.store.mem k (s.region id)
    refine (Quiet.setRegion s id ⟨judged.base.trans base, judged.size.trans size, ?_, fun sound => ?_,
      fun sound on whole => ?_⟩ (Region.atMost_trans rises judged.counters)).trans (Quiet.setLink _ (.raiseAll _ s.link))
    · rw [judged.disabled, state]
    · exact (sound.but.freeRead off s.store.mem k).judged id
    · have freed := whole.freeRead (sound.2.1 on).2.2.1 k
      rw [Region.judgeThreshold_keeps]
      exact freed.congr rfl rfl rfl rfl rfl rfl rfl rfl

/-- One region is replaced by a sound one that shares no block with the others. -/
theorem RegionsSound.setRegion {s : State} (h : RegionsSound s) {id : RegionId} {r : Region} (sound : r.Sound)
    (apart : r.state ≠ .disabled → ∀ j, j ≠ id → (s.region j).state ≠ .disabled →
      blocksOverlap r.base r.size (s.region j).base (s.region j).size = false) : RegionsSound (s.setRegion id r) := by
  have swap : ∀ a b c d : Nat, blocksOverlap a b c d = blocksOverlap c d a b := by
    intro a b c d
    simp only [blocksOverlap, decide_eq_decide]
    omega
  constructor
  · intro j
    by_cases e : id = j
    · subst e; rwa [State.region_setRegion_same]
    · rw [State.region_setRegion_other _ _ _ _ e]; exact h.1 j
  · intro i j different oni onj
    by_cases ei : id = i
    · subst ei
      rw [State.region_setRegion_same] at oni ⊢
      rw [State.region_setRegion_other _ _ _ _ different] at onj ⊢
      exact apart oni j (Ne.symm different) onj
    · rw [State.region_setRegion_other _ _ _ _ ei] at oni ⊢
      by_cases ej : id = j
      · subst ej
        rw [State.region_setRegion_same] at onj ⊢
        rw [swap]
        exact apart onj i different oni
      · rw [State.region_setRegion_other _ _ _ _ ej] at onj ⊢
        exact h.2 i j different oni onj

theorem mem_quadList (j : Fin 4) : j ∈ quadList := by revert j; decide

/-- A placement that is not taken meets no region that is not DISABLED (R99 check 5). -/
theorem blocksOverlap_of_not_taken {s : State} {id : RegionId} {base size : Nat}
    (h : placementTaken s id base size = false) {j : RegionId} (apart : j ≠ id) (on : (s.region j).state ≠ .disabled) :
    blocksOverlap base size (s.region j).base (s.region j).size = false := by
  have free := List.any_eq_false.1 h j (mem_quadList j)
  simpa [apart, on] using free

/-- The region REGION_CONFIG places: emptied, and DISABLED when it has no block (R99, R100). -/
def Region.configured (r : Region) (base size : Nat) (pol : Policy) (t : Nat) : Region :=
  { r.empty with base := base, size := size, policy := pol, threshold := t,
                 state := if size = 0 then .disabled else .stopped }

/-- What R99 asks of a configuration besides the state of the region. -/
structure Placeable (s : State) (id : RegionId) (base size t : Nat) : Prop where
  sized : ¬(size = 1 ∨ 256 < size ∨ Config.blockWords * size < t)
  free : ¬(size ≠ 0 ∧ (256 < base + size ∨ placementTaken s id base size = true))

theorem regionConfig_of_state {s : State} {id : RegionId} (moving : (s.region id).state ≠ .disabled)
    (running : (s.region id).state ≠ .stopped) (base size : Nat) (p : Byte) (t : Nat) :
    regionConfig s id base size p t = .refuse s .state := if_pos ⟨moving, running⟩

theorem regionConfig_of_policy {s : State} {id : RegionId}
    (rests : (s.region id).state = .disabled ∨ (s.region id).state = .stopped) (base size : Nat) {p : Byte} (t : Nat)
    (unknown : Policy.ofCode p = none) : regionConfig s id base size p t = .refuse s .range := by
  rw [regionConfig, if_neg (by tauto), unknown]

theorem regionConfig_of_range {s : State} {id : RegionId}
    (rests : (s.region id).state = .disabled ∨ (s.region id).state = .stopped) {base size : Nat} (p : Byte) {t : Nat}
    (bad : ¬Placeable s id base size t) : regionConfig s id base size p t = .refuse s .range := by
  rw [regionConfig, if_neg (by tauto)]
  cases Policy.ofCode p with
  | none => rfl
  | some pol =>
    dsimp only
    by_cases sized : size = 1 ∨ 256 < size ∨ Config.blockWords * size < t
    · exact if_pos sized
    · exact (if_neg sized).trans (if_pos (by_contra fun free => bad ⟨sized, free⟩))

theorem regionConfig_of_placeable {s : State} {id : RegionId}
    (rests : (s.region id).state = .disabled ∨ (s.region id).state = .stopped) {base size : Nat} {p : Byte} {t : Nat}
    {pol : Policy} (policy : Policy.ofCode p = some pol) (good : Placeable s id base size t) :
    regionConfig s id base size p t = .ok (s.setRegion id ((s.region id).configured base size pol t)) [] := by
  rw [regionConfig, if_neg (by tauto), policy]
  exact (if_neg good.sized).trans (if_neg good.free)

theorem Region.configured_sound {s : State} (sound : RegionsSound s) {id : RegionId} {base size t : Nat}
    (good : Placeable s id base size t) (pol : Policy) :
    RegionsSound (s.setRegion id ((s.region id).configured base size pol t)) := by
  have sized := good.sized
  have free := good.free
  by_cases off : size = 0
  · have disabled : ((s.region id).configured base size pol t).state = .disabled := if_pos off
    refine sound.setRegion ⟨?_, fun on => absurd disabled on, Nat.zero_le _, ?_, ?_, ?_⟩ fun on => absurd disabled on
    · simp only [disabled, true_iff]; exact off
    · simp [Region.configured, Region.empty]
    · simp [disabled]
    · simp [disabled]
  · have fresh : placementTaken s id base size = false :=
      Bool.eq_false_iff.2 fun taken => free ⟨off, .inr taken⟩
    refine sound.setRegion (Region.sound_of_empty (if_neg off) ?_ ?_ rfl rfl rfl rfl rfl) fun _ j apart on =>
      blocksOverlap_of_not_taken fresh apart on
    · show 2 ≤ size; omega
    · show base + size ≤ 256; omega

/-- REGION_CONFIG places an emptied region apart from the others (R99, R100). -/
theorem Runs.regionConfig (s : State) (id : RegionId) (base size : Nat) (p : Byte) (t : Nat) :
    Runs (fun k => k = .plain ∨ k = .place) s (regionConfig s id base size p t).state := by
  by_cases rests : (s.region id).state = .disabled ∨ (s.region id).state = .stopped
  · cases policy : Policy.ofCode p with
    | none => rw [regionConfig_of_policy rests _ _ _ policy]; exact .refl s
    | some pol =>
      by_cases good : Placeable s id base size t
      · rw [regionConfig_of_placeable rests policy good]
        exact .act (.inr rfl) (.place id _ (fun sound => Region.configured_sound sound good pol)
          (fun m => Region.whole_of_empty m rfl rfl rfl rfl rfl rfl) (Region.atMost_refl _))
      · rw [regionConfig_of_range rests p good]; exact .refl s
  · rw [regionConfig_of_state (fun e => rests (.inl e)) (fun e => rests (.inr e))]; exact .refl s

end Sys2Proof.Machine

/-! PROOFS. What every command does: a run of the acts its kind allows, or a reset. -/

namespace Sys2Proof.Machine

/-! ### STATS_READ (R144) -/

theorem LineStats.reset_balanced : LineStats.reset.Balanced := fun _ _ _ _ => rfl

/-- Setting a group's counters to 0 moves nothing else. -/
theorem Act.clearGroup (s : State) (g : StatsGroup) : Act .clear s (s.clearGroup g) := by
  cases g with
  | line i =>
    refine .stats _ (.inr rfl) (fun j balanced => ?_) nofun
    show (s.stats.lines.set i.val LineStats.reset i.isLt)[j.val].Balanced
    rw [Vector.getElem_set]
    split_ifs
    · exact LineStats.reset_balanced
    · exact balanced
  | filters => exact .filters _ (.inr rfl) nofun
  | region i =>
    exact .region i _ (.inr rfl) ⟨rfl, rfl, Iff.rfl, id, fun _ _ h => h.congr rfl rfl rfl rfl rfl rfl rfl rfl⟩ nofun
  | seq => exact .stats _ (.inr rfl) (fun _ h => h) nofun
  | link => exact .stats _ (.inr rfl) (fun _ h => h) nofun

/-- STATS_READ clears when its flag is 1 alone. -/
theorem Runs.statsRead {p : ActKind → Prop} (s : State) (g c : Byte) (clear : c = 1 → p .clear) :
    Runs p s (statsRead s g c).state := by
  unfold Machine.statsRead
  split
  · exact .refl s
  · split_ifs with zero one
    · exact .refl s
    · exact .act (clear one) (.clearGroup s _)
    · exact .refl s

/-! ### Commands -/

/-- The acts a command may take: only some rows offer records, only REGION_CONFIG places a region, only STATS_READ with
clear lowers a counter. -/
def mayDo (c : Instr) : ActKind → Prop
  | .plain => True
  | .offer => storesNothing c = false
  | .place => ∃ tag payload, c = .regionConfig tag payload
  | .clear => clearsCounters c = true

/-- The resets (R175, R176). -/
inductive Resets : Instr → State → State → Prop
  | power (b1 b0 : PinLevel) (s : State) : Resets (.powerOn b1 b0) s (s.powerOn b1 b0)
  | pin (b1 b0 : PinLevel) (s : State) : Resets (.pinReset b1 b0) s (s.pinReset b1 b0)
  | soft {c : Instr} {s : State} : c = .softReset ∨ c = .frameSent → s.link.sendingReset = true →
      Resets c s s.softReset

/-- What a command's answer says of the state it leaves. -/
inductive Effect (c : Instr) (s : State) : Result → Prop
  | run {t : State} : Runs (mayDo c) s t → Effect c s (.next t)
  | reset {t : State} : Resets c s t → Effect c s (.next t)

theorem Effect.quiet {c : Instr} {s t : State} (h : Quiet s t) : Effect c s (.next t) :=
  .run (h.mono fun _ e => e ▸ trivial)

theorem Effect.moves {c : Instr} {s t : State} (may : storesNothing c = false) (h : Moves s t) : Effect c s (.next t) :=
  .run (h.mono fun _ kind => kind.elim (fun e => e ▸ trivial) (fun e => e ▸ may))

theorem Quiet.serve (s : State) (req : Request) (fits : Nat → Bool) {act : State → List Byte → Answer}
    (h : ∀ s1, fits req.payload.length = true → Quiet s1 (act s1 req.payload).state) :
    Quiet s (Machine.serve s req fits act) := Runs.serve (p := (· = .plain)) rfl s req fits h

theorem Moves.serve (s : State) (req : Request) (fits : Nat → Bool) {act : State → List Byte → Answer}
    (h : ∀ s1, Moves s1 (act s1 req.payload).state) : Moves s (Machine.serve s req fits act) :=
  Runs.serve (.inl rfl) s req fits fun s1 _ => h s1

/-- A request whose owning block neither records, places nor clears. -/
theorem Effect.request {c : Instr} {s : State} {req : Request} {fits : Nat → Bool} {act : State → List Byte → Answer}
    (h : ∀ s1, fits req.payload.length = true → Quiet s1 (act s1 req.payload).state) :
    Effect c s (.next (serve s req fits act)) := .quiet (.serve s req fits h)

/-- A request whose owning block may record. -/
theorem Effect.recording {c : Instr} {s : State} {req : Request} {fits : Nat → Bool} {act : State → List Byte → Answer}
    (may : storesNothing c = false) (h : ∀ s1, Moves s1 (act s1 req.payload).state) :
    Effect c s (.next (serve s req fits act)) := .moves may (.serve s req fits h)

theorem Effect.sampleIf {c : Instr} {s : State} (may : storesNothing c = false) (i : LineId) (l : Level)
    (named : RxOut → Bool) : Effect c s (.next (sampleIf s i l named)) := .moves may (.sampleIf s i l named)

theorem Quiet.unit {s : State} {act : UnitId → Answer} (h : ∀ u, Quiet s (act u).state) (b : Byte) :
    Quiet s (withUnit s b act).state := Runs.withUnit h b

theorem Moves.unit {s : State} {act : UnitId → Answer} (h : ∀ u, Moves s (act u).state) (b : Byte) :
    Moves s (withUnit s b act).state := Runs.withUnit h b

theorem Moves.line {s : State} {act : LineId → Answer} (h : ∀ i, Moves s (act i).state) (b : Byte) :
    Moves s (withLine s b act).state := Runs.withLine h b

theorem Quiet.line {s : State} {act : LineId → Answer} (h : ∀ i, Quiet s (act i).state) (b : Byte) :
    Quiet s (withLine s b act).state := Runs.withLine h b

theorem Quiet.region {s : State} {act : RegionId → Answer} (h : ∀ id, Quiet s (act id).state) (b : Byte) :
    Quiet s (withRegion s b act).state := Runs.withRegion h b

theorem Quiet.filterRead (s : State) (b : Byte) : Quiet s (filterRead s b).state := by
  unfold Machine.filterRead
  split <;> exact .refl s

/-- The soft reset follows the RESET reply alone (R175). -/
theorem Effect.soft {c : Instr} {s t : State} (named : c = .softReset ∨ c = .frameSent) (h : Quiet s t) :
    Effect c s (.next (if s.link.sendingReset then s.softReset else t)) := by
  split_ifs with sending
  · exact .reset (.soft named sending)
  · exact .quiet h

/-- One case per command: its row of the dispatch is a run of the acts it may take, or a reset. -/
theorem exec_effect (c : Instr) (s : State) : Effect c s (exec c s) := by
  cases c with
  | powerOn b1 b0 => exact .reset (.power b1 b0 s)
  | pinReset b1 b0 => exact .reset (.pin b1 b0 s)
  | softReset => exact .soft (.inl rfl) (.refl s)
  | frameSent => exact .soft (.inr rfl) (.setLink s (.finishFrame s.link))
  | ident => exact .request fun s1 _ => .refl s1
  | reset => exact .request fun s1 _ => .resetRequest s1
  | noticeMask => exact .request fun s1 _ => by split; exacts [.noticeMask s1 _, .refl s1]
  | unknownCode => exact .quiet (by split_ifs; exacts [.refl s, .serveUnknown s _])
  | lineConfig => exact .request fun s1 _ => by split; exacts [.line (fun i => .lineConfig s1 i _) _, .refl s1]
  | lineStart => exact .request fun s1 _ => by split; exacts [.line (fun i => .lineStart s1 i) _, .refl s1]
  | lineStop => exact .recording rfl fun s1 => by split; exacts [.line (fun i => .lineStop s1 i) _, .refl s1]
  | lineReset => exact .request fun s1 _ => by split; exacts [.line (fun i => .lineReset s1 i) _, .refl s1]
  | lineStatus => exact .request fun s1 _ => by split; exacts [.line (fun _ => .refl s1) _, .refl s1]
  | timeConfig => exact .request fun s1 _ => by split; exacts [.timeConfig s1 _, .refl s1]
  | timeRead => exact .request fun s1 _ => .refl s1
  | inputConfig => exact .recording rfl fun s1 => by split; exacts [.inputConfig s1 _ _ _ _ _, .refl s1]
  | timerConfig => exact .request fun s1 _ => by split; exacts [.unit (fun u => .timerConfig s1 u _ _ _ _) _, .refl s1]
  | timerControlStart tag payload =>
    refine .quiet ?_
    split_ifs
    · exact .refl s
    · refine .serve s _ _ fun s1 _ => ?_
      split
      · split_ifs
        · exact .unit (fun u => .startTimer s1 u) _
        · exact .refl s1
      · exact .refl s1
  | timerControlStop tag payload =>
    refine .quiet ?_
    split_ifs
    · exact .serve s _ _ fun s1 _ => by split; exacts [.unit (fun u => .stopTimer s1 u) _, .refl s1]
    · exact .refl s
  | timerControlCapture tag payload =>
    refine .moves rfl ?_
    split_ifs
    · exact .serve s _ _ fun s1 => by split; exacts [.unit (fun u => .captureTimer s1 u) _, .refl s1]
    · exact .refl s
  | timerRead => exact .request fun s1 _ => by split; exacts [.unit (fun _ => .refl s1) _, .refl s1]
  | filterWrite => exact .request fun s1 _ => by split; exacts [.filterWrite s1 _ _, .refl s1]
  | filterEnable => exact .request fun s1 _ => .filterEnable s1 _ _
  | filterRead => exact .request fun s1 _ => by split; exacts [.filterRead s1 _, .refl s1]
  | seqLoad => exact .request fun s1 fits => .seqLoad s1 fits
  | seqArm => exact .request fun s1 _ => .seqArm s1
  | seqDisarm => exact .request fun s1 _ => .seqDisarm s1
  | seqForce => exact .recording rfl fun s1 => .seqForce s1
  | seqStatus => exact .request fun s1 _ => .refl s1
  | seqMasks => exact .request fun s1 _ => by split; exacts [.seqMasks s1 _ _, .refl s1]
  | flagsWrite => exact .request fun s1 _ => by split; exacts [.flagsWrite s1 _ _, .refl s1]
  | outputConfig => exact .request fun s1 _ => by split; exacts [.outputConfig s1 _ _ _, .refl s1]
  | regionConfig tag payload =>
    refine .run (.serve trivial s _ _ fun s1 _ => ?_)
    split
    · exact .withRegion (fun id => (Runs.regionConfig s1 id _ _ _ _).mono fun k kind =>
        kind.elim (fun e => e ▸ trivial) (fun e => e ▸ ⟨tag, payload, rfl⟩)) _
    · exact .refl s1
  | regionStart => exact .request fun s1 _ => by split; exacts [.region (fun id => .regionStart s1 id _ _) _, .refl s1]
  | regionStop => exact .request fun s1 _ => by split; exacts [.region (fun id => .regionStop s1 id) _, .refl s1]
  | regionClear => exact .request fun s1 _ => by split; exacts [.region (fun id => .regionClear s1 id) _, .refl s1]
  | regionStatus => exact .request fun s1 _ => by split; exacts [.region (fun _ => .refl s1) _, .refl s1]
  | read => exact .request fun s1 _ => by split; exacts [.region (fun id => .regionRead s1 id _) _, .refl s1]
  | release => exact .request fun s1 _ => by split; exacts [.region (fun id => .regionRelease s1 id _) _, .refl s1]
  | rewind => exact .request fun s1 _ => by split; exacts [.region (fun id => .regionRewind s1 id) _, .refl s1]
  | statsRead tag payload =>
    refine .run (.serve trivial s _ _ fun s1 _ => ?_)
    split
    · next g c shape =>
      refine .statsRead s1 g c fun one => ?_
      have payloadIs : payload = [g, 1] := one ▸ shape
      rw [payloadIs]; rfl
    · exact .refl s1
  | send => exact .request fun s1 _ => by split; exacts [.line (fun i => .sendRequest s1 i _ _ _ _) _, .refl s1]
  | cannedWrite => exact .request fun s1 _ => by split; exacts [.cannedWrite s1 _ _ _ _ _ _, .refl s1]
  | txFlush => exact .request fun s1 _ => by split; exacts [.line (fun i => .flushTx s1 i) _, .refl s1]
  | txStatus => exact .request fun s1 _ => by split; exacts [.line (fun _ => .refl s1) _, .refl s1]
  | settleEnd line => exact .quiet (.sampleIf s line .mark fun o => by cases o <;> simp)
  | startBitFall line => exact .quiet (.sampleIf s line .space fun o => by cases o <;> simp)
  | startBitValidation line pin => exact .quiet (.sampleIf s line _ fun o => by cases o <;> simp)
  | characterDelivered line pin => exact .sampleIf rfl line _ _
  | breakRecognised line pin => exact .sampleIf rfl line _ _
  | breakEvent line => exact .sampleIf rfl line _ _
  | gapCompletion line => exact .sampleIf rfl line _ _
  | lineSample line pin => exact .moves rfl (.takeSample s line _)
  | counterWrap => exact .moves rfl (by split_ifs; exacts [.tick s, .refl s])
  | inputEdge pin samples => exact .moves rfl (.samplePins s pin samples)
  | timerExpiry u => exact .moves rfl (by split_ifs; exacts [.tick s, .refl s])
  | eventTaken => exact .moves rfl (.takeEvent s)
  | pulseEnd => exact .moves rfl (by split_ifs; exacts [.tick s, .refl s])
  | tick => exact .moves rfl (.tick s)
  | takeLine line => exact .quiet (.takeLine s line)
  | preambleEnd line => exact .quiet (.preambleEnd s line)
  | txBreakEnd line => exact .quiet (.txBreakEnd s line)
  | txCharacterEnd line => exact .quiet (.txCharacterEnd s line)
  | echoDeadline line => exact .quiet (.echoDeadline s line)
  | holdEnd line => exact .quiet (.holdEnd s line)
  | frameLengthError samples => exact .quiet (by split_ifs; exacts [.takeLinkSamples s samples, .refl s])
  | frameTimeout => exact .quiet (.frameTimeout s)
  | frameReceived samples => exact .quiet (.takeLinkSamples s samples)

end Sys2Proof.Machine

/-! PROOFS. The invariants that every step keeps (the tier 3 statements), each from what one act and one reset keep. -/

namespace Sys2Proof.Machine

/-! ### From acts to steps -/

theorem step_of_empty {s : State} (h : s.pending = []) : step s = .next s := by unfold step; rw [h]

theorem step_of_front {s : State} {c : Instr} {rest : List Instr} (h : s.pending = c :: rest) :
    step s = exec c { s with pending := rest } := by unfold step; rw [h]

/-- Every reset gives the values of `State.afterReset`, with the memory as it was or unspecified. -/
theorem Resets.eq_afterReset {c : Instr} {s t : State} (h : Resets c s t) :
    ∃ cause b1 b0 mem, t = State.afterReset cause b1 b0 mem s.free s.pending ∧ (mem = [] ∨ mem = s.store.mem) := by
  cases h with
  | power b1 b0 => exact ⟨.power, b1, b0, [], rfl, .inl rfl⟩
  | pin b1 b0 => exact ⟨.pin, b1, b0, _, rfl, .inr rfl⟩
  | soft => exact ⟨.request, _, _, _, rfl, .inr rfl⟩

theorem Effect.next {c : Instr} {s t : State} (h : exec c s = .next t) : Runs (mayDo c) s t ∨ Resets c s t := by
  have effect := exec_effect c s
  rw [h] at effect
  cases effect with
  | run runs => exact .inl runs
  | reset resets => exact .inr resets

/-- What every act keeps, what a reset brings back and what the command queue does not touch, a step keeps. -/
theorem step_keeps {Inv : State → Prop} (queue : ∀ s l, Inv s → Inv { s with pending := l })
    (act : ∀ k s t, Act k s t → Inv s → Inv t)
    (reset : ∀ s cause b1 b0 mem free pending, Inv s → mem = [] ∨ mem = s.store.mem →
      Inv (State.afterReset cause b1 b0 mem free pending))
    {s t : State} (h : Inv s) (steps : step s = .next t) : Inv t := by
  cases pending : s.pending with
  | nil =>
    rw [step_of_empty pending] at steps
    cases steps
    exact h
  | cons c rest =>
    rw [step_of_front pending] at steps
    have start := queue s rest h
    rcases Effect.next steps with runs | resets
    · exact runs.keeps (fun k a b _ => act k a b) start
    · obtain ⟨cause, b1, b0, mem, e, kept⟩ := resets.eq_afterReset
      rw [e]
      exact reset _ cause b1 b0 mem _ _ start kept

/-! ### What an accessor reads after a reset -/

section
variable (cause : ResetCause) (b1 b0 : PinLevel) (mem : List Host.Cell) (free : Nat) (pending : List Instr)

@[simp] theorem State.line_afterReset (i : LineId) :
    (State.afterReset cause b1 b0 mem free pending).line i = Line.reset := by simp [State.afterReset, State.line]

@[simp] theorem State.region_afterReset (id : RegionId) :
    (State.afterReset cause b1 b0 mem free pending).region id = Region.reset := by
  simp [State.afterReset, State.region]

@[simp] theorem State.lineStats_afterReset (i : LineId) :
    (State.afterReset cause b1 b0 mem free pending).lineStats i = LineStats.reset := by
  simp [State.afterReset, State.lineStats, Stats.reset]

theorem txSound_afterReset : TxSound (State.afterReset cause b1 b0 mem free pending) := fun i => by
  rw [State.line_afterReset]; simp [TxUnit.Sound, Line.reset, TxUnit.reset]

theorem receiverSound_afterReset : ReceiverSound (State.afterReset cause b1 b0 mem free pending) := fun i => by
  rw [State.line_afterReset]; simp [Receiver.Sound, Line.reset, Receiver.off]

theorem assemblerClosed_afterReset : AssemblerClosed (State.afterReset cause b1 b0 mem free pending) := fun i _ => by
  rw [State.line_afterReset]; rfl

theorem linesInRange_afterReset : LinesInRange (State.afterReset cause b1 b0 mem free pending) := fun i => by
  rw [State.line_afterReset]
  exact ⟨by simp [LineSettings.InRange, Line.reset, LineSettings.reset], nofun⟩

theorem regionsSound_afterReset : RegionsSound (State.afterReset cause b1 b0 mem free pending) := by
  refine ⟨fun id => ?_, fun i j _ on => ?_⟩
  · rw [State.region_afterReset]; simp [Region.Sound, Region.reset]
  · rw [State.region_afterReset] at on; exact absurd rfl on

theorem regionsWhole_afterReset : RegionsWhole (State.afterReset cause b1 b0 mem free pending) :=
  ⟨regionsSound_afterReset .., linesInRange_afterReset _ _ _ _ _ _, fun id on => by
    rw [State.region_afterReset] at on; exact absurd rfl on⟩

theorem statsBalanced_afterReset : StatsBalanced (State.afterReset cause b1 b0 mem free pending) := fun i => by
  rw [State.lineStats_afterReset]; exact LineStats.reset_balanced

theorem sequencerSound_afterReset : SequencerSound (State.afterReset cause b1 b0 mem free pending) :=
  ⟨Nat.zero_le _, rfl, nofun⟩

theorem queuesBounded_afterReset : QueuesBounded (State.afterReset cause b1 b0 mem free pending) :=
  ⟨Nat.zero_le _, Nat.zero_le _⟩

theorem busyBounded_afterReset : BusyBounded (State.afterReset cause b1 b0 mem free pending) :=
  ⟨Nat.zero_le _, nofun⟩

theorem noticesDistinct_afterReset : NoticesDistinct (State.afterReset cause b1 b0 mem free pending) := by
  simp [NoticesDistinct, State.afterReset, Link.afterReset]

end

/-! ### Lines, sequencer and link -/

/-- What `Line.Keeps` says of every line, an act keeps. -/
theorem Act.line_keeps {k : ActKind} {s t : State} (h : Act k s t) (i : LineId) : (s.line i).Keeps (t.line i) := by
  cases h with
  | lines v keeps => exact keeps i
  | aside | seq | link | offer | place | region | filters | stats => exact .refl _

theorem Act.seq_keeps {k : ActKind} {s t : State} (h : Act k s t) : s.seq.Keeps t.seq := by
  cases h with
  | seq q keeps => exact keeps
  | lines | aside | link | offer | place | region | filters | stats => exact ⟨id, id⟩

theorem Act.link_keeps {k : ActKind} {s t : State} (h : Act k s t) : s.link.Keeps t.link := by
  cases h with
  | link k keeps => exact keeps
  | offer id rec => exact .raiseAll _ _
  | lines | aside | seq | place | region | filters | stats => exact .refl _

theorem Act.linesInRange {k : ActKind} {s t : State} (h : Act k s t) (range : LinesInRange s) : LinesInRange t :=
  fun i => (h.line_keeps i).range (range i)

/-- Settles O55: an act keeps each bound, and a reset empties every list. -/
theorem queuesStayBounded : Obligations.QueuesStayBounded := by
  refine ⟨fun s t queues tx steps => ?_, fun s t busy notices steps => ?_⟩
  · refine step_keeps (Inv := fun s => QueuesBounded s ∧ TxSound s) (fun _ _ h => h) ?_ ?_ ⟨queues, tx⟩ steps
    · rintro k s t act ⟨⟨events, buffer⟩, tx⟩
      exact ⟨⟨act.seq_keeps.queue events, act.link_keeps.buffer buffer⟩, fun i => (act.line_keeps i).unit (tx i)⟩
    · intros
      exact ⟨queuesBounded_afterReset .., txSound_afterReset _ _ _ _ _ _⟩
  · refine step_keeps (Inv := fun s => BusyBounded s ∧ NoticesDistinct s) (fun _ _ h => h) ?_ ?_ ⟨busy, notices⟩ steps
    · rintro k s t act ⟨busy, notices⟩
      exact ⟨act.link_keeps.busy busy, act.link_keeps.notices notices⟩
    · intros
      exact ⟨busyBounded_afterReset .., noticesDistinct_afterReset ..⟩

/-- Settles O56. -/
theorem receiversStaySound : Obligations.ReceiversStaySound := by
  intro s t sound closed steps
  refine step_keeps (Inv := fun s => ReceiverSound s ∧ AssemblerClosed s) (fun _ _ h => h) ?_ ?_ ⟨sound, closed⟩ steps
  · rintro k s t act ⟨sound, closed⟩
    have line := fun i => (act.line_keeps i).receiver (sound i) (closed i)
    exact ⟨fun i => (line i).1, fun i => (line i).2⟩
  · intros
    exact ⟨receiverSound_afterReset _ _ _ _ _ _, assemblerClosed_afterReset _ _ _ _ _ _⟩

/-- Settles O57. -/
theorem sequencerStaysSound : Obligations.SequencerStaysSound := fun _ _ sound steps =>
  step_keeps (Inv := SequencerSound) (fun _ _ h => h) (fun _ _ _ act => act.seq_keeps.sound)
    (fun _ _ _ _ _ _ _ _ _ => sequencerSound_afterReset ..) sound steps

/-! ### The capture store -/

theorem State.region_setRegion (s : State) (i j : RegionId) (r : Region) :
    (s.setRegion i r).region j = if i = j then r else s.region j := by
  by_cases e : i = j
  · subst e; rw [if_pos rfl, State.region_setRegion_same]
  · rw [if_neg e, State.region_setRegion_other _ _ _ _ e]

theorem State.region_offer (s : State) (id j : RegionId) (rec : Rec) :
    (s.offer id rec).region j =
      if id = j then (Placed.offer id ⟨s.store.mem, s.region id⟩ rec).placed.region else s.region j := by
  by_cases e : id = j
  · subst e; rw [if_pos rfl, State.offer_region_self]
  · rw [if_neg e, State.offer_region_other _ (Ne.symm e)]

/-- Capture memory is written by offers alone. -/
theorem Act.mem_of_not_offer {k : ActKind} {s t : State} (h : Act k s t) (other : k ≠ .offer) :
    t.store.mem = s.store.mem := by
  cases h with
  | offer => exact absurd rfl other
  | lines | aside | seq | link | place | region | filters | stats => rfl

theorem Act.memoryCanonical {k : ActKind} {s t : State} (h : Act k s t) (w : MemoryCanonical s) : MemoryCanonical t := by
  cases h with
  | offer id rec => exact Placed.offer_wf id (p := ⟨s.store.mem, s.region id⟩) rec w
  | lines | aside | seq | link | place | region | filters | stats => exact w

/-- Settles O54. -/
theorem memoryStaysCanonical : Obligations.MemoryStaysCanonical := fun s t w steps =>
  step_keeps (Inv := MemoryCanonical) (fun _ _ h => h) (fun _ _ _ act => act.memoryCanonical)
    (fun s _ _ _ mem _ _ w kept => by
      show Memory.wf mem = true
      rcases kept with e | e
      · rw [e]; rfl
      · rw [e]; exact w) w steps

/-- The same blocks belong to the same regions. -/
def SamePlaces (s t : State) : Prop :=
  ∀ id : RegionId, (t.region id).base = (s.region id).base ∧ (t.region id).size = (s.region id).size ∧
    ((t.region id).state = .disabled ↔ (s.region id).state = .disabled)

theorem SamePlaces.refl (s : State) : SamePlaces s s := fun _ => ⟨rfl, rfl, Iff.rfl⟩

theorem SamePlaces.trans {s t u : State} (h : SamePlaces s t) (g : SamePlaces t u) : SamePlaces s u := fun id => by
  obtain ⟨base, size, disabled⟩ := h id
  obtain ⟨base', size', disabled'⟩ := g id
  exact ⟨base'.trans base, size'.trans size, disabled'.trans disabled⟩

theorem Act.samePlaces {k : ActKind} {s t : State} (h : Act k s t) (other : k ≠ .place) : SamePlaces s t := by
  cases h with
  | place => exact absurd rfl other
  | lines | aside | seq | link | filters | stats => exact .refl s
  | offer id rec =>
    intro j
    have keeps := Placed.offer_keepsPlace id ⟨s.store.mem, s.region id⟩ rec
    rw [State.region_offer]
    split_ifs with e
    · subst e; exact ⟨keeps.base, keeps.size, keeps.disabled⟩
    · exact SamePlaces.refl s j
  | region id r _ keeps =>
    intro j
    rw [State.region_setRegion]
    split_ifs with e
    · subst e; exact ⟨keeps.base, keeps.size, keeps.disabled⟩
    · exact SamePlaces.refl s j

theorem RegionsSound.samePlaces {s t : State} (h : RegionsSound s) (same : SamePlaces s t)
    (sound : ∀ id : RegionId, (t.region id).Sound) : RegionsSound t := by
  refine ⟨sound, fun i j different oni onj => ?_⟩
  obtain ⟨basei, sizei, disabledi⟩ := same i
  obtain ⟨basej, sizej, disabledj⟩ := same j
  rw [basei, sizei, basej, sizej]
  exact h.2 i j different (fun e => oni (disabledi.2 e)) (fun e => onj (disabledj.2 e))

theorem Act.regionsSound {k : ActKind} {s t : State} (h : Act k s t) (sound : RegionsSound s) : RegionsSound t := by
  by_cases place : k = .place
  · cases h with
    | place id r keeps => exact keeps sound
    | region _ _ kind | filters _ kind | stats _ kind => subst place; simp at kind
    | lines | aside | seq | link | offer => cases place
  · refine sound.samePlaces (h.samePlaces place) fun j => ?_
    cases h with
    | place => exact absurd rfl place
    | lines | aside | seq | link | filters | stats => exact sound.1 j
    | offer id rec =>
      rw [State.region_offer]
      split_ifs
      · exact Placed.offer_sound id (p := ⟨s.store.mem, s.region id⟩) rec (sound.1 id)
      · exact sound.1 j
    | region id r _ keeps =>
      rw [State.region_setRegion]
      split_ifs
      · exact keeps.sound (sound.1 id)
      · exact sound.1 j

/-- Settles O58. -/
theorem regionsStaySound : Obligations.RegionsStaySound := fun _ _ sound steps =>
  step_keeps (Inv := RegionsSound) (fun _ _ h => h) (fun _ _ _ act => act.regionsSound)
    (fun _ _ _ _ _ _ _ _ _ => regionsSound_afterReset ..) sound steps

/-! ### The words of a region (R97) -/

/-- A word of a region lies in the region's blocks. -/
theorem inSomeRegion_of_wordAt {s : State} {id : RegionId} (on : (s.region id).state ≠ .disabled) {a q : Nat}
    (place : q < (s.region id).words) (word : a / 4 = (s.region id).wordAt q) : inSomeRegion s a := by
  simp only [Region.words, Region.wordAt, Config.blockWords] at place word
  exact ⟨id, on, by omega, by omega⟩

theorem inSomeRegion_samePlaces {s t : State} (same : SamePlaces s t) {a : Nat} (h : inSomeRegion t a) :
    inSomeRegion s a := by
  obtain ⟨id, on, low, high⟩ := h
  obtain ⟨base, size, disabled⟩ := same id
  exact ⟨id, fun e => on (disabled.2 e), by rwa [← base], by rwa [← base, ← size]⟩

/-- Two regions that are not DISABLED share no word (R99). -/
theorem RegionsSound.wordAt_ne {s : State} (h : RegionsSound s) {i j : RegionId} (different : i ≠ j)
    (oni : (s.region i).state ≠ .disabled) (onj : (s.region j).state ≠ .disabled) {p q : Nat}
    (hp : p < (s.region i).words) (hq : q < (s.region j).words) : (s.region i).wordAt p ≠ (s.region j).wordAt q := by
  have apart := h.2 i j different oni onj
  simp only [blocksOverlap, decide_eq_false_iff_not] at apart
  simp only [Region.words, Region.wordAt, Config.blockWords] at *
  omega

/-- A word is read from its four bytes alone. -/
theorem Memory.readWord_of_same_bytes {m m' : List Host.Cell} {k : Nat}
    (h : ∀ a, a / 4 = k → Memory.readByte m' a = Memory.readByte m a) :
    Memory.readWord m' k = Memory.readWord m k := by
  have at0 := h (4 * k) (by omega)
  have at1 := h (4 * k + 1) (by omega)
  have at2 := h (4 * k + 2) (by omega)
  have at3 := h (4 * k + 3) (by omega)
  simp only [Memory.readWord, at0, at1, at2, at3]

/-! ### What an act leaves of the memory -/

/-- An act that places no region writes in the regions alone. -/
theorem Act.byteAt {k : ActKind} {s t : State} (h : Act k s t) (w : MemoryCanonical s) (sound : RegionsSound s)
    {a : Nat} (outside : ¬inSomeRegion s a) : t.byteAt a = s.byteAt a := by
  cases h with
  | lines | aside | seq | link | place | region | filters | stats => rfl
  | offer id rec =>
    refine Placed.readByte_offer id (p := ⟨s.store.mem, s.region id⟩) w (sound.1 id) fun on k _ word => ?_
    have tail := ((sound.1 id).but.placed on).2.2.2.2
    exact outside (inSomeRegion_of_wordAt on (Region.advance_lt_of_lt tail _ k) word)

/-- What stays the same outside the regions while no region is placed. -/
structure OutsideAsIn (s : State) (a : Nat) (t : State) : Prop where
  canonical : MemoryCanonical t
  sound : RegionsSound t
  places : SamePlaces s t
  byte : t.byteAt a = s.byteAt a

theorem OutsideAsIn.act {s : State} {a : Nat} (outside : ¬inSomeRegion s a) {k : ActKind} {t u : State}
    (other : k ≠ .place) (h : Act k t u) (same : OutsideAsIn s a t) : OutsideAsIn s a u where
  canonical := h.memoryCanonical same.canonical
  sound := h.regionsSound same.sound
  places := same.places.trans (h.samePlaces other)
  byte := (h.byteAt same.canonical same.sound fun inside =>
    outside (inSomeRegion_samePlaces same.places inside)).trans same.byte

/-- A command that offers no record leaves the memory, unless it is POWER_ON. -/
theorem mem_of_storesNothing {c : Instr} {s t : State} (quiet : storesNothing c = true) (h : exec c s = .next t) :
    t.store.mem = s.store.mem := by
  rcases Effect.next h with runs | resets
  · refine runs.keeps (Inv := fun t => t.store.mem = s.store.mem) (fun k t u may act same => ?_) rfl
    refine (act.mem_of_not_offer fun e => ?_).trans same
    subst e
    exact absurd (quiet.symm.trans may) (by simp)
  · cases resets with
    | power => cases quiet
    | pin | soft => rfl

/-- Settles O53: REGION_CONFIG, which alone places a region, offers no record; every other command writes in the regions
alone. -/
theorem memoryOutsideRegionsUntouched : Obligations.MemoryOutsideRegionsUntouched := by
  intro c s t w sound powered h a outside
  by_cases quiet : storesNothing c = true
  · show Memory.readByte t.store.mem a = Memory.readByte s.store.mem a
    rw [mem_of_storesNothing quiet h]
  · rcases Effect.next h with runs | resets
    · refine (runs.keeps (Inv := OutsideAsIn s a) (fun k t u may act same => ?_) ⟨w, sound, .refl s, rfl⟩).byte
      refine same.act outside (fun e => ?_) act
      subst e
      obtain ⟨tag, payload, rfl⟩ := may
      exact quiet rfl
    · cases resets with
      | power b1 b0 => exact absurd rfl (powered b1 b0)
      | pin | soft => rfl

/-! ### Rings of whole records (R101, R127) -/

/-- An offer to one region leaves the words of the others. -/
theorem Region.Whole.offer_other {s : State} (w : MemoryCanonical s) (sound : RegionsSound s) {id j : RegionId}
    (different : id ≠ j) (on : (s.region j).state ≠ .disabled) (rec : Rec) (h : (s.region j).Whole s.store.mem) :
    (s.region j).Whole (s.offer id rec).store.mem := by
  obtain ⟨⟨read, unread, holds⟩, tail⟩ := (Region.whole_iff _ _).1 h
  have head := (sound.1 j).but.placed on |>.2.2.1
  refine (Region.whole_iff _ _).2 ⟨⟨read, unread, holds.of_same_words head fun k _ => ?_⟩, tail⟩
  refine Memory.readWord_of_same_bytes fun a word => ?_
  refine Placed.readByte_offer id (p := ⟨s.store.mem, s.region id⟩) w (sound.1 id) fun oni n _ written => ?_
  have atTail := ((sound.1 id).but.placed oni).2.2.2.2
  exact sound.wordAt_ne different oni on (Region.advance_lt_of_lt atTail _ n) (Region.advance_lt_of_lt head _ k)
    (written.symm.trans word)

theorem Act.regionsWhole {k : ActKind} {s t : State} (h : Act k s t) (w : MemoryCanonical s) (whole : RegionsWhole s) :
    RegionsWhole t := by
  obtain ⟨sound, range, rings⟩ := whole
  refine ⟨h.regionsSound sound, h.linesInRange range, fun j on => ?_⟩
  cases h with
  | lines | aside | seq | link | filters | stats => exact rings j on
  | place id r _ empty =>
    rw [State.region_setRegion] at on ⊢
    split_ifs at on ⊢
    · exact empty _
    · exact rings j on
  | region id r _ keeps =>
    rw [State.region_setRegion] at on ⊢
    split_ifs at on ⊢
    · have was : (s.region id).state ≠ .disabled := fun e => on (keeps.disabled.2 e)
      exact keeps.whole (sound.1 id) was (rings id was)
    · exact rings j on
  | offer id rec sized =>
    have keeps := Placed.offer_keepsPlace id ⟨s.store.mem, s.region id⟩ rec
    rw [State.region_offer] at on ⊢
    split_ifs at on ⊢ with e
    · have was : (s.region id).state ≠ .disabled := fun off => on (keeps.disabled.2 off)
      exact Placed.offer_whole id (p := ⟨s.store.mem, s.region id⟩) w (sound.1 id) (sized range) (rings id was)
    · exact (rings j on).offer_other w sound e on rec

/-- Settles O59: the canonical memory is kept along. -/
theorem regionsStayWhole : Obligations.RegionsStayWhole := by
  intro s t w whole steps
  refine (step_keeps (Inv := fun s => MemoryCanonical s ∧ RegionsWhole s) (fun _ _ h => h) ?_ ?_ ⟨w, whole⟩ steps).2
  · rintro k s t act ⟨w, whole⟩
    exact ⟨act.memoryCanonical w, act.regionsWhole w whole⟩
  · rintro s cause b1 b0 mem free pending ⟨w, -⟩ kept
    refine ⟨?_, regionsWhole_afterReset ..⟩
    rcases kept with rfl | rfl
    · rfl
    · exact w

/-! ### Counters (R125, R137, R139) -/

theorem Act.statsBalanced {k : ActKind} {s t : State} (h : Act k s t) (balanced : StatsBalanced s) : StatsBalanced t := by
  cases h with
  | stats st _ keeps => exact fun i => keeps i (balanced i)
  | lines | aside | seq | link | offer | place | region | filters => exact balanced

theorem countersAtMost_refl (s : State) : countersAtMost s s :=
  ⟨fun _ => LineStats.atMost_refl _, fun _ => le_refl _, fun _ => Region.atMost_refl _, le_refl _, le_refl _,
    LinkStats.atMost_refl _⟩

theorem countersAtMost_trans {s t u : State} (h : countersAtMost s t) (g : countersAtMost t u) : countersAtMost s u := by
  obtain ⟨lines, hits, regions, taken, lost, link⟩ := h
  obtain ⟨lines', hits', regions', taken', lost', link'⟩ := g
  exact ⟨fun i => LineStats.atMost_trans (lines i) (lines' i), fun e => (hits e).trans (hits' e),
    fun id => Region.atMost_trans (regions id) (regions' id), taken.trans taken', lost.trans lost',
    LinkStats.atMost_trans link link'⟩

/-- Acts that move the regions' counters alone. -/
theorem countersAtMost_of_regions {s t : State} (filters : t.filters = s.filters) (stats : t.stats = s.stats)
    (h : ∀ id : RegionId, (s.region id).atMost (t.region id)) : countersAtMost s t := by
  simp only [countersAtMost, State.lineStats, State.filter, filters, stats]
  exact ⟨fun _ => LineStats.atMost_refl _, fun _ => le_refl _, h, le_refl _, le_refl _, LinkStats.atMost_refl _⟩

/-- Only STATS_READ's act lowers a counter. -/
theorem Act.countersAtMost {k : ActKind} {s t : State} (h : Act k s t) (other : k ≠ .clear) :
    countersAtMost s t := by
  have raised : ∀ {id : RegionId} {r : Region}, (s.region id).atMost r →
      Machine.countersAtMost s (s.setRegion id r) := fun {id r} rises =>
    countersAtMost_of_regions rfl rfl fun j => by
      rw [State.region_setRegion]
      split_ifs with e
      · subst e; exact rises
      · exact Region.atMost_refl _
  cases h with
  | lines | aside | seq | link => exact countersAtMost_refl s
  | place id r _ _ rises => exact raised rises
  | region id r kind _ rises => exact raised (rises (kind.resolve_right other))
  | offer id rec =>
    refine countersAtMost_of_regions rfl rfl fun j => ?_
    rw [State.region_offer]
    split_ifs with e
    · subst e; exact (Placed.offer_keepsPlace id ⟨s.store.mem, s.region id⟩ rec).counters
    · exact Region.atMost_refl _
  | filters v kind rises =>
    exact ⟨fun _ => LineStats.atMost_refl _, rises (kind.resolve_right other), fun _ => Region.atMost_refl _, le_refl _,
      le_refl _, LinkStats.atMost_refl _⟩
  | stats st kind _ rises =>
    obtain ⟨lines, taken, lost, link⟩ := rises (kind.resolve_right other)
    exact ⟨lines, fun _ => le_refl _, fun _ => Region.atMost_refl _, taken, lost, link⟩

/-- Settles O60. -/
theorem countersBalanceAndRise : Obligations.CountersBalanceAndRise := by
  refine ⟨fun s t balanced steps => step_keeps (Inv := StatsBalanced) (fun _ _ h => h)
    (fun _ _ _ act => act.statsBalanced) (fun _ _ _ _ _ _ _ _ _ => statsBalanced_afterReset _ _ _ _ _ _) balanced
    steps, fun c s t h keeps powered pinned sending => ?_⟩
  rcases Effect.next h with runs | resets
  · refine runs.keeps (Inv := countersAtMost s) (fun k t u may act rises => ?_) (countersAtMost_refl s)
    refine countersAtMost_trans rises (act.countersAtMost fun e => ?_)
    subst e
    exact absurd (keeps.symm.trans may) (by simp)
  · cases resets with
    | power b1 b0 => exact absurd rfl (powered b1 b0)
    | pin b1 b0 => exact absurd rfl (pinned b1 b0)
    | soft _ sent => exact absurd (sending.symm.trans sent) (by simp)

/-! ### The machine's first state and its steps -/

/-- Settles O3. -/
theorem invariantsAtReset : Obligations.InvariantsAtReset :=
  ⟨rfl, queuesBounded_afterReset .., txSound_afterReset _ _ _ _ _ _, receiverSound_afterReset _ _ _ _ _ _,
    assemblerClosed_afterReset _ _ _ _ _ _, statsBalanced_afterReset _ _ _ _ _ _, sequencerSound_afterReset ..,
    regionsSound_afterReset .., regionsWhole_afterReset .., busyBounded_afterReset .., noticesDistinct_afterReset ..⟩

/-- Settles O1. -/
theorem stepRunsTheFrontCommand : Obligations.StepRunsTheFrontCommand :=
  ⟨fun _ _ _ => step_of_front, fun _ => step_of_empty⟩

end Sys2Proof.Machine

/-! PROOFS. What a request leaves alone, and the values after the resets. -/

namespace Sys2Proof.Machine

/-! ### Requests that only read -/

theorem sameButLink_refl (s : State) : sameButLink s s := by simp [sameButLink]

theorem sameButLink_taken (s : State) (req : Request) : sameButLink s (taken s req) := by
  unfold taken
  split <;> simp [sameButLink]

theorem sameButLink_placeReply {s t : State} (h : sameButLink s t) (before : State) (r : Reply) :
    sameButLink s (placeReply before t r) := by
  rw [placeReply_keeps]; exact h

/-- A request whose owning block changes nothing moves the link and its group alone. -/
theorem sameButLink_serve (s : State) (req : Request) (fits : Nat → Bool) {act : State → List Byte → Answer}
    (reads : ∀ s1, (act s1 req.payload).state = s1) : sameButLink s (serve s req fits act) := by
  cases can : canTake s req with
  | false => rw [serve_not_taken fits act can]; exact sameButLink_refl s
  | true =>
    have judged : (judgeRequest (taken s req) req fits act).state = taken s req := by
      unfold judgeRequest
      split_ifs
      · rfl
      · exact reads _
      · rfl
    rw [serve_taken fits act can, judged]
    exact sameButLink_placeReply (sameButLink_taken s req) _ _

theorem withLine_reads (s : State) (b : Byte) (content : LineId → List Byte) :
    (withLine s b fun i => .ok s (content i)).state = s := by
  unfold withLine
  split <;> rfl

theorem withUnit_reads (s : State) (b : Byte) (content : UnitId → List Byte) :
    (withUnit s b fun i => .ok s (content i)).state = s := by
  unfold withUnit
  split <;> rfl

theorem withRegion_reads (s : State) (b : Byte) (content : RegionId → List Byte) :
    (withRegion s b fun i => .ok s (content i)).state = s := by
  unfold withRegion
  split <;> rfl

theorem filterRead_reads (s : State) (b : Byte) : (filterRead s b).state = s := by
  unfold filterRead
  split <;> rfl

theorem statsRead_reads (s : State) (g : Byte) {c : Byte} (keeps : c ≠ 1) : (statsRead s g c).state = s := by
  unfold statsRead
  split
  · rfl
  · split_ifs
    · rfl
    · rfl

/-- One case per reading request. -/
theorem sameButLink_of_readsOnly {c : Instr} {s t : State} (reads : readsOnly c = true) (h : exec c s = .next t) :
    sameButLink s t := by
  have served : ∀ {req fits act}, (∀ s1, (act s1 req.payload).state = s1) →
      Host.Outcome.next (serve s req fits act) = (Host.Outcome.next t : Result) → sameButLink s t :=
    fun same e => by cases e; exact sameButLink_serve s _ _ same
  cases c with
  | ident | timeRead | seqStatus => exact served (fun _ => rfl) h
  | lineStatus | txStatus => exact served (fun s1 => by split; exacts [withLine_reads s1 _ _, rfl]) h
  | timerRead => exact served (fun s1 => by split; exacts [withUnit_reads s1 _ _, rfl]) h
  | regionStatus => exact served (fun s1 => by split; exacts [withRegion_reads s1 _ _, rfl]) h
  | filterRead => exact served (fun s1 => by split; exacts [filterRead_reads s1 _, rfl]) h
  | statsRead tag payload =>
    refine served (fun s1 => ?_) h
    split
    · next g c shape =>
      have payloadIs : payload = [g, c] := shape
      refine statsRead_reads s1 g fun one => ?_
      rw [payloadIs, one] at reads
      cases reads
    · rfl
  | _ => cases reads

/-- Settles O51. -/
theorem readersAndNonProducersStoreNothing : Obligations.ReadersAndNonProducersStoreNothing :=
  ⟨fun _ _ _ => sameButLink_of_readsOnly, fun _ _ _ quiet h a =>
    congrArg (Memory.readByte · a) (mem_of_storesNothing quiet h)⟩

/-! ### The resets -/

theorem exec_reset_taken {tag : Byte} {s s1 : State} (hTaken : TakenAs s ⟨tag, 0x02, []⟩ s1) :
    exec (.reset tag []) s =
      .next (placeReply s1 { s1 with link := { s1.link with rx := .hunt, resetTaken := true } }
        { tag := tag, code := 0x82, payload := [0], origin := .resetReply }) := by
  obtain ⟨tagged, can, rfl⟩ := hTaken
  have code : replyCode tag 0x02 = 0x82 := if_neg tagged
  refine congrArg Host.Outcome.next ((serve_taken _ _ can).trans ?_)
  rw [judgeRequest, if_neg tagged]
  show placeReply _ _ { tag := tag, code := replyCode tag 0x02, payload := [0], origin := .resetReply } = _
  rw [code]
  rfl

/-- Settles O4. -/
theorem resetsAreTaken : Obligations.ResetsAreTaken :=
  ⟨fun _ _ _ => exec_reset_taken, fun _ _ _ => ⟨_, rfl, rfl⟩, fun _ _ _ => ⟨_, rfl, rfl⟩, fun _ sending =>
    ⟨_, congrArg Host.Outcome.next (if_pos sending), congrArg Host.Outcome.next (if_pos sending), rfl⟩⟩

theorem bytesOfNat_zero (n : Nat) : ∀ b ∈ bytesOfNat n 0, b = 0 := by
  induction n with
  | zero => simp [bytesOfNat]
  | succ n ih => simpa [bytesOfNat] using ih

theorem counters_zero (k : Nat) {l : List Nat} (zero : ∀ n ∈ l, n = 0) : ∀ b ∈ l.flatMap (bytesOfNat k), b = 0 := by
  intro b member
  obtain ⟨n, listed, inside⟩ := List.mem_flatMap.1 member
  rw [zero n listed] at inside
  exact bytesOfNat_zero k b inside

theorem groupBytes_reset (g : StatsGroup) : ∀ b ∈ State.reset.groupBytes g, b = 0 := by
  cases g with
  | line i =>
    intro b member
    have group : State.reset.groupBytes (.line i) = LineStats.reset.bytes := by
      rw [State.groupBytes, State.reset, State.lineStats_afterReset]
    rw [group] at member
    rcases List.mem_append.1 member with chars | rest
    · exact bytesOfNat_zero 6 b chars
    · refine counters_zero 4 (fun n listed => ?_) b rest
      simpa [LineStats.reset] using listed
  | filters =>
    refine counters_zero 4 fun n listed => ?_
    obtain ⟨f, inTable, rfl⟩ := List.mem_map.1 listed
    have isReset : f = Filter.reset := by simpa [State.reset, State.afterReset] using inTable
    rw [isReset]; rfl
  | region id =>
    have group : State.reset.groupBytes (.region id) = Region.reset.counterBytes := by
      rw [State.groupBytes, State.reset, State.region_afterReset]
    rw [group]
    exact counters_zero 4 fun n listed => by simpa [Region.reset] using listed
  | seq | link => exact counters_zero 4 fun n listed => by simpa [State.reset, State.afterReset, Stats.reset, LinkStats.reset] using listed

/-- Settles O2. -/
theorem resetValues : Obligations.ResetValues := by
  refine ⟨fun i => ?_, rfl, fun p => ?_, fun u => ?_, fun e => ?_, rfl, fun id => ?_, groupBytes_reset, fun c => ?_,
    rfl, rfl, rfl, rfl, rfl, rfl, fun n => rfl⟩
  · simp only [State.reset, State.txPinAt, State.line_afterReset]
    exact ⟨rfl, rfl, rfl, rfl, rfl, rfl, rfl, rfl, rfl, rfl, rfl, fun n => rfl⟩
  · simp [State.reset, State.pin, State.afterReset, InputPin.reset]
  · simp [State.reset, State.timer, State.afterReset, TimerUnit.reset]
  · simp [State.reset, State.filter, State.afterReset, Filter.reset, FilterEntry.reset]
  · rw [State.reset, State.region_afterReset]; simp [Region.reset]
  · simp [State.reset, State.afterReset]

end Sys2Proof.Machine

/-! PROOFS. The first judgements of a request (R131, R133, R170) and numbers above the last. -/

namespace Sys2Proof.Machine

/-! ### The row of a request -/

/-- How a request's row answers: by its owning block under R133's lengths, or UNKNOWN. -/
inductive Served (i : Instr) (req : Request) : Prop
  | table (act : State → List Byte → Answer) (listed : requestCodes.contains req.code = true)
      (row : ∀ s, exec i s = .next (serve s req (admits req.code) act)) : Served i req
  | unknown (notListed : requestCodes.contains req.code = false)
      (row : ∀ s, exec i s = .next (serveUnknown s req)) : Served i req

/-- Every row that stands for a request serves that request. -/
theorem served_of_requestOf {i : Instr} {req : Request} (h : requestOf i = some req) : Served i req := by
  cases i with
  | unknownCode tag code payload =>
    rw [requestOf] at h
    split_ifs at h with listed
    cases h
    exact .unknown (Bool.eq_false_iff.2 listed) fun s => congrArg Host.Outcome.next (if_neg listed)
  | timerControlStart tag payload =>
    rw [requestOf] at h
    split_ifs at h with row
    cases h
    exact .table _ rfl fun s => congrArg Host.Outcome.next (if_neg row)
  | timerControlStop tag payload =>
    rw [requestOf] at h
    split_ifs at h with row
    cases h
    exact .table _ rfl fun s => congrArg Host.Outcome.next (if_pos row)
  | timerControlCapture tag payload =>
    rw [requestOf] at h
    split_ifs at h with row
    cases h
    exact .table _ rfl fun s => congrArg Host.Outcome.next (if_pos row)
  | ident | reset | noticeMask | lineConfig | lineStart | lineStop | lineReset | lineStatus | timeConfig | timeRead
  | inputConfig | timerConfig | timerRead | filterWrite | filterEnable | filterRead | seqLoad | seqArm | seqDisarm
  | seqForce | seqStatus | seqMasks | flagsWrite | outputConfig | regionConfig | regionStart | regionStop | regionClear
  | regionStatus | read | release | rewind | statsRead | send | cannedWrite | txFlush | txStatus =>
    cases h
    exact .table _ rfl fun s => rfl
  | powerOn | pinReset | softReset | settleEnd | startBitFall | startBitValidation | characterDelivered | breakRecognised
  | breakEvent | gapCompletion | counterWrap | inputEdge | timerExpiry | eventTaken | pulseEnd | takeLine | preambleEnd
  | txBreakEnd | txCharacterEnd | echoDeadline | holdEnd | frameLengthError | frameTimeout | frameReceived | frameSent
  | tick | lineSample => cases h

theorem serveUnknown_taken {s : State} {req : Request} (can : canTake s req = true) :
    serveUnknown s req =
      answered (taken s req) (taken s req) req (if req.tag = 0 then .tag else .unknown) [] := by
  unfold serveUnknown
  rw [takeRequest_eq, can]
  show placeReply _ _ _ = placeReply _ _ _
  congr 1
  rw [replyTo]
  split_ifs <;> rfl

theorem replyTo_tagged {req : Request} (h : req.tag ≠ 0) (st : Status) (content : List Byte) :
    replyTo req st content =
      { tag := req.tag, code := req.code ||| 0x80, payload := st.code :: content, origin := .handler } := by
  rw [replyTo, replyCode, if_neg h]

theorem replyTo_untagged {req : Request} (h : req.tag = 0) (st : Status) (content : List Byte) :
    replyTo req st content = { tag := 0, code := 0xFF, payload := st.code :: content, origin := .handler } := by
  rw [replyTo, replyCode, if_pos h, h]

/-- Settles O5: whichever row stands for the request serves it under R133's lengths, or answers UNKNOWN. -/
theorem requestsAreJudged : Obligations.RequestsAreJudged := by
  refine ⟨fun i req s row can untagged => ⟨?_, replyTo_untagged untagged _ _⟩,
    fun i req s s1 row hTaken listed short => ⟨?_, replyTo_tagged hTaken.1 _ _⟩,
    fun tag code payload s s1 notListed hTaken => ⟨?_, replyTo_tagged hTaken.1 _ _⟩⟩
  · cases served_of_requestOf row with
    | table act _ served => rw [served, serve_tag_zero _ _ can untagged]
    | unknown _ served => rw [served, serveUnknown_taken can, if_pos untagged]
  · obtain ⟨tagged, can, rfl⟩ := hTaken
    cases served_of_requestOf row with
    | table act _ served => rw [served, serve_length _ _ can tagged short]
    | unknown notListed => exact absurd (listed.symm.trans notListed) (by simp)
  · obtain ⟨tagged, can, rfl⟩ := hTaken
    have row : exec (.unknownCode tag code payload) s = .next (serveUnknown s ⟨tag, code, payload⟩) :=
      congrArg Host.Outcome.next (if_neg (by rw [notListed]; exact Bool.false_ne_true))
    rw [row, serveUnknown_taken can, if_neg tagged]

/-! ### Numbers above the last -/

theorem withLine_above {b : Byte} (h : 4 ≤ b.toNat) (s : State) (act : LineId → Answer) :
    withLine s b act = .refuse s .range := by rw [withLine, quadOfByte_above h]

theorem withUnit_above {b : Byte} (h : 4 ≤ b.toNat) (s : State) (act : UnitId → Answer) :
    withUnit s b act = .refuse s .range := by rw [withUnit, quadOfByte_above h]

theorem withRegion_above {b : Byte} (h : 4 ≤ b.toNat) (s : State) (act : RegionId → Answer) :
    withRegion s b act = .refuse s .range := by rw [withRegion, quadOfByte_above h]

theorem filterIndex_above {b : Byte} (h : 32 ≤ b.toNat) : filterIndex b = none := dif_neg (by omega)

theorem filterWrite_above {b : Byte} (h : 32 ≤ b.toNat) (s : State) (bytes : List Byte) :
    filterWrite s b bytes = .refuse s .range := by rw [filterWrite, filterIndex_above h]

theorem filterRead_above {b : Byte} (h : 32 ≤ b.toNat) (s : State) : filterRead s b = .refuse s .range := by
  rw [filterRead, filterIndex_above h]

theorem inputConfig_above {b : Byte} (h : 2 ≤ b.toNat) (s : State) (f e fl m : Byte) :
    inputConfig s b f e fl m = .refuse s .range := by
  have none : pinOfByte b = none := dif_neg (by omega)
  rw [inputConfig, none]

theorem cannedWrite_above {c b : Byte} (h : 8 ≤ c.toNat ∨ 4 ≤ b.toNat) (s : State) (pre brk opts : Byte)
    (data : List Byte) : cannedWrite s c b pre brk opts data = .refuse s .range := by
  unfold cannedWrite
  rcases h with slot | line
  · have none : slotOfByte c = none := dif_neg (by omega)
    rw [none]
  · rw [quadOfByte_above line]
    cases slotOfByte c <;> rfl

section
variable {s s1 t : State} {req : Request} {fits : Nat → Bool} {act : State → List Byte → Answer}

/-- A row whose owning block refuses. -/
theorem exec_refuse {st : Status} (hTaken : TakenAs s req s1) (admitted : fits req.payload.length = true)
    (refuses : act s1 req.payload = .refuse s1 st) :
    (Host.Outcome.next (serve s req fits act) : Result) = .next (answered s1 s1 req st []) :=
  congrArg Host.Outcome.next (serve_unchanged hTaken admitted refuses)

theorem exec_range (hTaken : TakenAs s req s1) (admitted : fits req.payload.length = true)
    (refuses : act s1 req.payload = .refuse s1 .range) :
    (Host.Outcome.next (serve s req fits act) : Result) = .next (answered s1 s1 req .range []) :=
  exec_refuse hTaken admitted refuses

/-- A row whose owning block takes the request, and no RESET. -/
theorem exec_ok {content : List Byte} (hTaken : TakenAs s req s1) (admitted : fits req.payload.length = true)
    (acts : act s1 req.payload = .ok t content) (keeps : t.link.resetTaken = s1.link.resetTaken) :
    (Host.Outcome.next (serve s req fits act) : Result) = .next (answered s1 t req .ok content) :=
  congrArg Host.Outcome.next (serve_answered hTaken admitted acts (keeps.trans hTaken.resetTaken))

end

theorem length_of_admitted {n : Nat} {b : Byte} {rest : List Byte} (h : exactly (n + 1) (b :: rest).length = true) :
    rest.length = n := by simpa [exactly] using h

/-- The rows whose payload is the number alone. -/
theorem exec_range_alone {b tag : Byte} {rest : List Byte} {s s1 : State} (above : 4 ≤ b.toNat) {i : Instr}
    (member : i ∈ [Instr.lineStart tag (b :: rest), .lineStop tag (b :: rest), .lineReset tag (b :: rest),
      .lineStatus tag (b :: rest), .timerRead tag (b :: rest), .regionStop tag (b :: rest), .regionClear tag (b :: rest),
      .regionStatus tag (b :: rest), .rewind tag (b :: rest), .txFlush tag (b :: rest), .txStatus tag (b :: rest)])
    {req : Request} (row : requestOf i = some req) (hTaken : TakenAs s req s1)
    (fits : admits req.code req.payload.length = true) : exec i s = .next (answered s1 s1 req .range []) := by
  have alone : exactly 1 (b :: rest).length = true → rest = [] := fun h => List.length_eq_zero_iff.1 (length_of_admitted h)
  simp only [List.mem_cons, List.not_mem_nil, or_false] at member
  rcases member with rfl | rfl | rfl | rfl | rfl | rfl | rfl | rfl | rfl | rfl | rfl <;> cases row <;>
    obtain rfl := alone fits
  · exact exec_range hTaken fits (withLine_above above ..)
  · exact exec_range hTaken fits (withLine_above above ..)
  · exact exec_range hTaken fits (withLine_above above ..)
  · exact exec_range hTaken fits (withLine_above above ..)
  · exact exec_range hTaken fits (withUnit_above above ..)
  · exact exec_range hTaken fits (withRegion_above above ..)
  · exact exec_range hTaken fits (withRegion_above above ..)
  · exact exec_range hTaken fits (withRegion_above above ..)
  · exact exec_range hTaken fits (withRegion_above above ..)
  · exact exec_range hTaken fits (withLine_above above ..)
  · exact exec_range hTaken fits (withLine_above above ..)

/-- The TIMER_CONTROL rows. -/
theorem exec_range_timerControl {b tag : Byte} {rest : List Byte} {s s1 : State} (above : 4 ≤ b.toNat) {i : Instr}
    (member : i ∈ [Instr.timerControlStart tag (b :: rest), .timerControlStop tag (b :: rest),
      .timerControlCapture tag (b :: rest)])
    {req : Request} (row : requestOf i = some req) (hTaken : TakenAs s req s1)
    (fits : admits req.code req.payload.length = true) : exec i s = .next (answered s1 s1 req .range []) := by
  have two : exactly 2 (b :: rest).length = true → ∃ op, rest = [op] := fun h =>
    List.length_eq_one_iff.1 (length_of_admitted h)
  simp only [List.mem_cons, List.not_mem_nil, or_false] at member
  rcases member with rfl | rfl | rfl <;> rw [requestOf] at row <;> split_ifs at row with own <;> cases row <;>
    obtain ⟨op, rfl⟩ := two fits
  · refine (congrArg Host.Outcome.next (if_neg own)).trans (exec_range hTaken fits ?_)
    show (if op = 0 then withUnit s1 b _ else Answer.refuse s1 .range) = _
    rw [withUnit_above above, ite_self]
  · exact (congrArg Host.Outcome.next (if_pos own)).trans (exec_range hTaken fits (withUnit_above above ..))
  · exact (congrArg Host.Outcome.next (if_pos own)).trans (exec_range hTaken fits (withUnit_above above ..))

/-- The rows whose payload goes on after the number. -/
theorem exec_range_longer {b tag : Byte} {rest : List Byte} {s s1 : State} (above : 4 ≤ b.toNat) {i : Instr}
    (member : i ∈ [Instr.lineConfig tag (b :: rest), .timerConfig tag (b :: rest), .regionConfig tag (b :: rest),
      .regionStart tag (b :: rest), .read tag (b :: rest), .release tag (b :: rest), .send tag (b :: rest)])
    {req : Request} (row : requestOf i = some req) (hTaken : TakenAs s req s1)
    (fits : admits req.code req.payload.length = true) : exec i s = .next (answered s1 s1 req .range []) := by
  simp only [List.mem_cons, List.not_mem_nil, or_false] at member
  rcases member with rfl | rfl | rfl | rfl | rfl | rfl | rfl <;> cases row
  · exact exec_range hTaken fits (withLine_above above ..)
  · match rest, length_of_admitted (n := 6) fits with
    | [_, _, _, _, _, _], _ => exact exec_range hTaken fits (withUnit_above above ..)
  · match rest, length_of_admitted (n := 6) fits with
    | [_, _, _, _, _, _], _ => exact exec_range hTaken fits (withRegion_above above ..)
  · match rest, length_of_admitted (n := 3) fits with
    | [_, _, _], _ => exact exec_range hTaken fits (withRegion_above above ..)
  · match rest, length_of_admitted (n := 2) fits with
    | [_, _], _ => exact exec_range hTaken fits (withRegion_above above ..)
  · match rest, length_of_admitted (n := 2) fits with
    | [_, _], _ => exact exec_range hTaken fits (withRegion_above above ..)
  · have long : 5 ≤ (b :: rest).length := (of_decide_eq_true (p := 5 ≤ _ ∧ _ ≤ 260) fits).1
    match rest, long with
    | _ :: _ :: _ :: _, _ => exact exec_range hTaken fits (withLine_above above ..)

/-- Settles O7. -/
theorem numberAboveTheLast : Obligations.NumberAboveTheLast := by
  refine ⟨fun b rest tag s s1 above i member req row hTaken fits => ?_,
    fun b rest tag s s1 above i member req row hTaken fits => ?_,
    fun b f e fl m tag s s1 above hTaken => exec_range hTaken rfl (inputConfig_above above ..),
    fun c b pre brk opts tag data s s1 above short hTaken => exec_range hTaken ?_ (cannedWrite_above above ..),
    fun b op tag s s1 above hTaken => ?_⟩
  · have parts : i ∈ [Instr.lineStart tag (b :: rest), .lineStop tag (b :: rest), .lineReset tag (b :: rest),
          .lineStatus tag (b :: rest), .timerRead tag (b :: rest), .regionStop tag (b :: rest),
          .regionClear tag (b :: rest), .regionStatus tag (b :: rest), .rewind tag (b :: rest), .txFlush tag (b :: rest),
          .txStatus tag (b :: rest)] ∨
        i ∈ [Instr.timerControlStart tag (b :: rest), .timerControlStop tag (b :: rest),
          .timerControlCapture tag (b :: rest)] ∨
        i ∈ [Instr.lineConfig tag (b :: rest), .timerConfig tag (b :: rest), .regionConfig tag (b :: rest),
          .regionStart tag (b :: rest), .read tag (b :: rest), .release tag (b :: rest), .send tag (b :: rest)] := by
      simp only [List.mem_cons, List.not_mem_nil, or_false] at member ⊢
      tauto
    rcases parts with alone | control | longer
    · exact exec_range_alone above alone row hTaken fits
    · exact exec_range_timerControl above control row hTaken fits
    · exact exec_range_longer above longer row hTaken fits
  · simp only [List.mem_cons, List.not_mem_nil, or_false] at member
    rcases member with rfl | rfl <;> cases row
    · exact exec_range hTaken fits (filterWrite_above above ..)
    · obtain rfl := List.length_eq_zero_iff.1 (length_of_admitted (n := 0) fits)
      exact exec_range hTaken fits (filterRead_above above _)
  · simp only [between, List.length_append, List.length_cons, List.length_nil, decide_eq_true_eq]
    omega
  · have operation : timerOperation [b, op] = some op := rfl
    have own : ¬(timerOperation [b, op] = some 1 ∨ timerOperation [b, op] = some 2) := by
      rw [operation]
      rintro (e | e) <;> cases e <;> simp at above
    have notStart : op ≠ 0 := by rintro rfl; simp at above
    exact (congrArg Host.Outcome.next (if_neg own)).trans (exec_range hTaken rfl (if_neg notStart))

end Sys2Proof.Machine

/-! PROOFS. The host link's transmitter and its notices (R130, R165, R169, R171 to R173). -/

namespace Sys2Proof.Machine

/-! ### What a free transmitter chooses (R171) -/

theorem Link.choose_of_busy {k : Link} {o : Outgoing} (h : k.wire = some o) : k.choose = k := by
  rw [Link.choose, h]

theorem Link.choose_of_reply {k : Link} {r : Reply} {rest : List Reply} (idle : k.wire = none)
    (replies : k.replies = r :: rest) : k.choose = { k with wire := some (.reply r), replies := rest } := by
  rw [Link.choose, idle, replies]

theorem Link.choose_of_notice {k : Link} {n : Notice} {rest : List Notice} (idle : k.wire = none)
    (replies : k.replies = []) (notices : k.notices = n :: rest) :
    k.choose = { k with wire := some (.notice n), notices := rest } := by
  rw [Link.choose, idle, replies, notices]

theorem Link.choose_of_none {k : Link} (replies : k.replies = []) (notices : k.notices = []) : k.choose = k := by
  rw [Link.choose, replies, notices]
  cases k.wire <;> rfl

/-! ### Replies -/

/-- The reply joins the list unless the request's own notice has just gone on an idle wire. -/
theorem placeReply_of_not_notice {s after : State} (r : Reply)
    (h : s.link.wire ≠ none ∨ ∀ n, after.link.wire ≠ some (.notice n)) :
    placeReply s after r = after.setLink (after.link.addReply r) := by
  unfold placeReply
  split
  · next idle began => exact absurd began (h.resolve_left (not_not.2 idle) _)
  · rfl

/-- Settles O6, part 1. -/
theorem placeReply_cases (s after : State) (r : Reply) :
    (after.link.wire = none → after.link.replies = [] →
      placeReply s after r = { after with link := { after.link with wire := some (.reply r) } }) ∧
    (∀ p rest, after.link.wire = none → after.link.replies = p :: rest →
      placeReply s after r =
        { after with link := { after.link with wire := some (.reply p), replies := rest ++ [r] } }) ∧
    (∀ o, after.link.wire = some o → s.link.wire ≠ none ∨ (∃ p, o = .reply p) →
      placeReply s after r = { after with link := { after.link with replies := after.link.replies ++ [r] } }) ∧
    (∀ n, s.link.wire = none → after.link.wire = some (.notice n) →
      placeReply s after r =
          { after with
            link := { after.link with
              wire := some (.reply r)
              notices := (after.link.notices.find? (fun m => m.kind == n.kind)).getD n ::
                after.link.notices.filter (fun m => m.kind != n.kind) }
            free := after.free + 1 } ∨
        placeReply s after r =
          { after with
            link := { after.link with replies := after.link.replies ++ [r] }, free := after.free + 1 }) := by
  refine ⟨fun idle empty => ?_, fun p rest idle waiting => ?_, fun o began reply => ?_, fun n idle began => ?_⟩
  · rw [placeReply_of_not_notice r (.inr fun n => by simp [idle]), Link.addReply,
      Link.choose_of_reply (k := { after.link with replies := after.link.replies ++ [r] }) (r := r) (rest := []) idle
        (by rw [empty]; rfl)]
    simp [State.setLink, empty]
  · rw [placeReply_of_not_notice r (.inr fun n => by simp [idle]), Link.addReply,
      Link.choose_of_reply (k := { after.link with replies := after.link.replies ++ [r] }) (r := p) (rest := rest ++ [r])
        idle (by rw [waiting]; rfl)]
    rfl
  · have other : s.link.wire ≠ none ∨ ∀ n, after.link.wire ≠ some (.notice n) := by
      refine reply.imp id ?_
      rintro ⟨p, rfl⟩ n
      simp [began]
    rw [placeReply_of_not_notice r other, Link.addReply,
      Link.choose_of_busy (k := { after.link with replies := after.link.replies ++ [r] }) began]
    rfl
  · unfold placeReply
    rw [idle, began]
    dsimp only
    split_ifs
    · exact .inl rfl
    · refine .inr ?_
      rw [Link.addReply, Link.choose_of_busy (k := { after.link with replies := after.link.replies ++ [r] }) began]
      rfl

/-- The request's place is freed by its handler's reply (R169). -/
theorem frameSent_eq {s : State} (sending : s.link.sendingReset = false) {places : List Buffered}
    (h : places = (match s.link.wire with
      | some (.reply r) => if r.origin = .handler then s.link.buffer.tail else s.link.buffer
      | some (.notice _) | none => s.link.buffer)) :
    s.frameSent = s.setLink ({ s.link with buffer := places, wire := none } : Link).choose := by
  subst h
  exact if_neg (ne_true_of_eq_false sending)

theorem frameSent_cases (s : State) (places : List Buffered) (sending : s.link.sendingReset = false)
    (h : places = (match s.link.wire with
      | some (.reply r) => if r.origin = .handler then s.link.buffer.tail else s.link.buffer
      | some (.notice _) | none => s.link.buffer)) :
    (∀ r rest, s.link.replies = r :: rest →
      exec .frameSent s =
        .next { s with link := { s.link with buffer := places, wire := some (.reply r), replies := rest } }) ∧
    (∀ n rest, s.link.replies = [] → s.link.notices = n :: rest →
      exec .frameSent s =
        .next { s with link := { s.link with buffer := places, wire := some (.notice n), notices := rest } }) ∧
    (s.link.replies = [] → s.link.notices = [] →
      exec .frameSent s = .next { s with link := { s.link with buffer := places, wire := none } }) := by
  have row : exec .frameSent s = .next (s.setLink ({ s.link with buffer := places, wire := none } : Link).choose) :=
    congrArg Host.Outcome.next (frameSent_eq sending h)
  refine ⟨fun r rest waiting => ?_, fun n rest empty pending => ?_, fun empty quiet => ?_⟩
  · rw [row, Link.choose_of_reply (k := { s.link with buffer := places, wire := none }) rfl waiting]; rfl
  · rw [row, Link.choose_of_notice (k := { s.link with buffer := places, wire := none }) rfl empty pending]; rfl
  · rw [row, Link.choose_of_none (k := { s.link with buffer := places, wire := none }) empty quiet]; rfl

/-! ### The link transmit pin (R165) -/

theorem Link.bitLevels_of_idle {k : Link} (h : k.wire = none) : k.bitLevels = [] := by rw [Link.bitLevels, h]

theorem Link.bitLevels_of_wire {k : Link} {o : Outgoing} (h : k.wire = some o) :
    k.bitLevels = o.bytes.flatMap linkLevels := by rw [Link.bitLevels, h]

theorem Link.pinAt_of_level {k : Link} {n : Nat} {l : Level} (h : k.bitLevels[n]? = some l) :
    k.pinAt n = Sense.normal.drive l := by rw [Link.pinAt, h]; rfl

theorem Link.sendingReset_iff (k : Link) :
    k.sendingReset = true ↔ ∃ r, k.wire = some (.reply r) ∧ r.origin = .resetReply := by
  unfold Link.sendingReset
  split
  · next r wire => simp [wire]
  · next n wire => simp [wire]
  · next wire => simp [wire]

theorem linkLevels_eq (b : Byte) :
    linkLevels b = [.space] ++ (List.range 8).map (fun i => if b.getLsbD i then Level.mark else .space) ++ [.mark] := by
  revert b; decide +kernel

theorem Link.pin_cases (k : Link) :
    (k.wire = none → ∀ n, k.pinAt n = .high) ∧
    (∀ n, k.bitLevels[n]? = some .mark → k.pinAt n = .high) ∧
    (∀ n, k.bitLevels[n]? = some .space → k.pinAt n = .low) ∧
    (k.sendingReset = true ↔ ∃ r, k.wire = some (.reply r) ∧ r.origin = .resetReply) ∧
    (∀ r, k.wire = some (.reply r) → k.bitLevels = (frameBytes r.tag r.code r.payload).flatMap linkLevels) ∧
    (∀ n, k.wire = some (.notice n) →
      k.bitLevels = (frameBytes 0 (BitVec.ofNat 8 (0xF8 + n.kind.bit)) n.payload).flatMap linkLevels) ∧
    ∀ b : Byte,
      linkLevels b =
        [.space] ++ (List.range 8).map (fun i => if b.getLsbD i then Level.mark else .space) ++ [.mark] :=
  ⟨fun idle n => by rw [Link.pinAt, Link.bitLevels_of_idle idle]; rfl, fun _ h => Link.pinAt_of_level h,
    fun _ h => Link.pinAt_of_level h, k.sendingReset_iff, fun _ h => Link.bitLevels_of_wire h,
    fun _ h => Link.bitLevels_of_wire h, linkLevels_eq⟩

/-- Settles O6. -/
theorem repliesAndNoticesAreSent : Obligations.RepliesAndNoticesAreSent :=
  ⟨placeReply_cases, frameSent_cases, Link.pin_cases⟩

/-! ### Notices (R172, R173) -/

theorem placeNotice_of_new {n : Notice} {ns : List Notice} (h : ∀ m ∈ ns, m.kind ≠ n.kind) :
    placeNotice n ns = ns ++ [n] := by
  induction ns with
  | nil => rfl
  | cons m t ih =>
    rw [placeNotice, if_neg (h m (by simp)), ih fun x member => h x (by simp [member])]
    rfl

theorem placeNotice_of_pending {n m : Notice} {before behind : List Notice} (first : ∀ x ∈ before, x.kind ≠ n.kind)
    (same : m.kind = n.kind) : placeNotice n (before ++ m :: behind) = before ++ n :: behind := by
  induction before with
  | nil => exact if_pos same
  | cons x t ih =>
    rw [List.cons_append, placeNotice, if_neg (first x (by simp)), ih fun y member => first y (by simp [member])]
    rfl

theorem Link.raise_of_masked {k : Link} {n : Notice} (h : k.mask.getLsbD n.kind.bit = false) : k.raise n = k := by
  rw [Link.raise, if_neg (ne_true_of_eq_false h)]

theorem Link.raise_of_enabled {k : Link} {n : Notice} (h : k.mask.getLsbD n.kind.bit = true) :
    k.raise n = ({ k with notices := placeNotice n k.notices } : Link).choose := if_pos h

theorem State.raise_of_masked {s : State} {n : Notice} (h : s.link.mask.getLsbD n.kind.bit = false) :
    s.raise n = s := by rw [State.raise, Link.raise_of_masked h]; rfl

/-- With a frame on the wire the notice is placed and waits. -/
theorem State.raise_of_wire {s : State} {n : Notice} {o : Outgoing} (wire : s.link.wire = some o)
    (enabled : s.link.mask.getLsbD n.kind.bit = true) :
    s.raise n = { s with link := { s.link with notices := placeNotice n s.link.notices } } := by
  rw [State.raise, Link.raise_of_enabled enabled,
    Link.choose_of_busy (k := { s.link with notices := placeNotice n s.link.notices }) wire]
  rfl

/-- At an idle transmitter without replies the oldest of the set then goes. -/
theorem State.raise_of_idle {s : State} {n first : Notice} {rest : List Notice} (idle : s.link.wire = none)
    (empty : s.link.replies = []) (enabled : s.link.mask.getLsbD n.kind.bit = true)
    (placed : placeNotice n s.link.notices = first :: rest) :
    s.raise n = { s with link := { s.link with wire := some (.notice first), notices := rest } } := by
  rw [State.raise, Link.raise_of_enabled enabled,
    Link.choose_of_notice (k := { s.link with notices := placeNotice n s.link.notices }) idle empty placed]
  rfl

theorem exec_noticeMask_taken {tag m : Byte} {s s1 : State} (hTaken : TakenAs s ⟨tag, 0x03, [m]⟩ s1) :
    (m.getLsbD 7 = true →
      exec (.noticeMask tag [m]) s = .next (answered s1 s1 ⟨tag, 0x03, [m]⟩ .range [])) ∧
    (m.getLsbD 7 = false →
      exec (.noticeMask tag [m]) s = .next (answered s1
        { s1 with link := { s1.link with
            mask := m, notices := s1.link.notices.filter (fun n => m.getLsbD n.kind.bit) } }
        ⟨tag, 0x03, [m]⟩ .ok [m])) := by
  refine ⟨fun above => exec_range hTaken rfl (if_pos above), fun inside => ?_⟩
  exact exec_ok hTaken rfl (if_neg (ne_true_of_eq_false inside)) rfl

/-- Settles O8. -/
theorem noticesArePlacedAndMasked : Obligations.NoticesArePlacedAndMasked := by
  refine ⟨fun k => by cases k <;> rfl, fun s n o wire => ⟨State.raise_of_masked, fun enabled new => ?_,
    fun enabled before m behind pending first same => ?_⟩, fun s n idle empty => ⟨State.raise_of_masked,
    fun enabled none => ?_, fun enabled p rest pending => ⟨fun new => ?_, fun same => ?_⟩⟩,
    fun _ _ _ _ => exec_noticeMask_taken⟩
  · rw [State.raise_of_wire wire enabled, placeNotice_of_new new]
  · rw [State.raise_of_wire wire enabled, pending, placeNotice_of_pending first same]
  · rw [State.raise_of_idle idle empty enabled (by rw [none]; rfl), ← none]
  · exact State.raise_of_idle idle empty enabled (by rw [placeNotice_of_new new, pending]; rfl)
  · exact State.raise_of_idle idle empty enabled (by rw [pending]; exact if_pos same)

end Sys2Proof.Machine

/-! PROOFS. The host link's receiver: bytes, frames and their checks (R130, R165 to R169). -/

namespace Sys2Proof.Machine

/-! ### A byte with one bit for each condition -/

theorem getLsbD_zero_byte (k : Nat) : (0 : Byte).getLsbD k = false := by simp

theorem byteOfBits_toNat (l : List Bool) (short : l.length ≤ 8) :
    (byteOfBits l).toNat < 2 ^ l.length ∧ ∀ k, (byteOfBits l).toNat.testBit k = l[k]?.getD false := by
  induction l with
  | nil => exact ⟨by decide, fun k => by simp [byteOfBits]⟩
  | cons b t ih =>
    simp only [List.length_cons] at short
    obtain ⟨small, bits⟩ := ih (by omega)
    have bound : 2 ^ t.length ≤ 2 ^ 7 := Nat.pow_le_pow_right (by norm_num) (by omega)
    have value : (byteOfBits (b :: t)).toNat = b.toNat + 2 * (byteOfBits t).toNat := by
      rw [byteOfBits]
      cases b
      · simp only [Bool.false_eq_true, if_false, Bool.toNat_false]
        bv_omega
      · simp only [if_true, Bool.toNat_true]
        bv_omega
    rw [value]
    have bit := Bool.toNat_le b
    refine ⟨by rw [List.length_cons, pow_succ]; omega, fun k => ?_⟩
    cases k with
    | zero =>
      rw [Nat.testBit_zero]
      cases b <;> simp
    | succ k =>
      rw [Nat.testBit_succ, show (b.toNat + 2 * (byteOfBits t).toNat) / 2 = (byteOfBits t).toNat by omega, bits]
      simp

theorem byteOfBits_getLsbD {l : List Bool} (short : l.length ≤ 8) (k : Nat) :
    (byteOfBits l).getLsbD k = l[k]?.getD false := by
  rw [BitVec.getLsbD, (byteOfBits_toNat l short).2]

theorem byteOfBits_bit_iff {l : List Bool} (short : l.length ≤ 8) (k : Nat) :
    (byteOfBits l).getLsbD k = true ↔ l[k]? = some true := by
  rw [byteOfBits_getLsbD short]
  cases l[k]? <;> simp

/-! ### Bytes of the link -/

theorem bitSamples_levelOf (c : Bool) :
    bitSamples (if c then Level.mark else .space) = List.replicate 16 (if c then PinLevel.high else .low) := by
  cases c <;> rfl

theorem linkSamples_eq (bytes : List Byte) : linkSamples bytes = bytes.flatMap (fun b =>
    List.replicate 16 .low ++
      (List.range 8).flatMap (fun k => List.replicate 16 (if b.getLsbD k then PinLevel.high else .low)) ++
      List.replicate 16 .high) := by
  rw [linkSamples, List.flatMap_assoc]
  congr 1
  funext b
  rw [linkLevels_eq, List.flatMap_append, List.flatMap_append, List.flatMap_map]
  simp only [bitSamples_levelOf]
  rfl

/-- The register after the shifts of one byte. -/
theorem crcShifts_eq (r : Nat → BitVec 16)
    (shift : ∀ k, r (k + 1) = if (r k).getLsbD 15 then (r k <<< 1) ^^^ 0x1021 else r k <<< 1) (n k : Nat) :
    crcShifts n (r k) = r (k + n) := by
  induction n generalizing k with
  | zero => rfl
  | succ n ih =>
    have one : crcShift (r k) = r (k + 1) := by
      rw [shift, crcShift, BitVec.msb_eq_getLsbD_last]
    rw [crcShifts, one, ih, Nat.add_assoc, Nat.add_comm 1 n]

theorem frameCheck_append (bs : List Byte) (b : Byte) : frameCheck (bs ++ [b]) = crcByte (frameCheck bs) b := by
  rw [frameCheck, List.foldl_append]; rfl

theorem frameCheck_step (bs : List Byte) (b : Byte) (r : Nat → BitVec 16)
    (start : r 0 = frameCheck bs ^^^ (b.zeroExtend 16 <<< 8))
    (shift : ∀ k, r (k + 1) = if (r k).getLsbD 15 then (r k <<< 1) ^^^ 0x1021 else r k <<< 1) :
    frameCheck (bs ++ [b]) = r 8 := by
  rw [frameCheck_append, crcByte, ← start, crcShifts_eq r shift 8 0]

theorem Link.syncHeld_iff (k : Link) : k.syncHeld = true ↔
    k.resetTaken = true ∨ 4 ≤ (k.replies.filter (fun r => decide (r.origin = .busy))).length := by
  rw [Link.syncHeld, Bool.or_eq_true, decide_eq_true_eq, or_comm]
  rfl

/-! ### The frame receiver, byte by byte (R166 to R169) -/

theorem State.takeByte_skip {s : State} {b : Byte} (hunts : s.link.rx = .hunt)
    (other : b ≠ 0xC3 ∨ s.link.syncHeld = true) : s.takeByte b = s := by
  rw [State.takeByte, hunts]
  refine if_neg fun ⟨sync, free⟩ => ?_
  rcases other with h | h
  · exact h sync
  · exact absurd (free.symm.trans h) (by simp)

theorem State.takeByte_sync {s : State} (hunts : s.link.rx = .hunt) (free : s.link.syncHeld = false) :
    s.takeByte 0xC3 = s.setFrameRx .header := by
  rw [State.takeByte, hunts]
  exact if_pos ⟨rfl, free⟩

theorem State.takeByte_low {s : State} (h : s.link.rx = .header) (b : Byte) :
    s.takeByte b = s.setFrameRx (.headerLow b) := by
  rw [State.takeByte, h]

theorem badLength_iff (low high : Byte) :
    badLength low high = true ↔ natOfBytes [low, high] < 2 ∨ 1026 < natOfBytes [low, high] := by
  rw [badLength, Bool.or_eq_true, decide_eq_true_eq, decide_eq_true_eq]

theorem State.takeByte_high {s : State} {low b : Byte} (h : s.link.rx = .headerLow low)
    (two : 2 ≤ natOfBytes [low, b]) (most : natOfBytes [low, b] ≤ 1026) :
    s.takeByte b = s.setFrameRx (.body low b []) := by
  rw [State.takeByte, h]
  refine if_neg fun bad => ?_
  rcases (badLength_iff low b).1 bad with h | h <;> omega

theorem State.takeByte_badLength {s : State} {low b : Byte} (h : s.link.rx = .headerLow low)
    (bad : natOfBytes [low, b] < 2 ∨ 1026 < natOfBytes [low, b]) :
    s.takeByte b = (s.reportLink (fun g => { g with lengthErrors := inc32 g.lengthErrors })).setFrameRx .hunt := by
  rw [State.takeByte, h]
  exact if_pos ((badLength_iff low b).2 bad)

theorem State.takeByte_more {s : State} {low high b : Byte} {got : List Byte} (h : s.link.rx = .body low high got)
    (more : got.length + 1 < natOfBytes [low, high] + 2) :
    s.takeByte b = s.setFrameRx (.body low high (got ++ [b])) := by
  rw [State.takeByte, h]
  exact if_pos (by simpa using more)

theorem State.takeByte_last {s : State} {low high b : Byte} {got : List Byte} (h : s.link.rx = .body low high got)
    (last : got.length + 1 = natOfBytes [low, high] + 2) :
    s.takeByte b = s.judgeFrame low high (got ++ [b]) := by
  rw [State.takeByte, h]
  exact if_neg (by simpa using last.ge)

theorem State.setFrameRx_setFrameRx (s : State) (a b : FrameRx) : (s.setFrameRx a).setFrameRx b = s.setFrameRx b := rfl

theorem State.setFrameRx_self {s : State} {r : FrameRx} (h : s.link.rx = r) : s.setFrameRx r = s := by
  subst h; rfl

theorem State.judgeFrame_setFrameRx (s : State) (r : FrameRx) (low high : Byte) (got : List Byte) :
    (s.setFrameRx r).judgeFrame low high got = s.judgeFrame low high got := rfl

/-- Bytes short of the whole frame gather in the body. -/
theorem State.foldl_body (s : State) (low high : Byte) (bs got : List Byte)
    (short : got.length + bs.length < natOfBytes [low, high] + 2) :
    bs.foldl State.takeByte (s.setFrameRx (.body low high got)) = s.setFrameRx (.body low high (got ++ bs)) := by
  induction bs generalizing got with
  | nil => rw [List.append_nil]; rfl
  | cons b t ih =>
    simp only [List.length_cons] at short
    rw [List.foldl_cons, State.takeByte_more rfl (by omega), State.setFrameRx_setFrameRx,
      ih (got ++ [b]) (by simp only [List.length_append, List.length_singleton]; omega), List.append_assoc,
      List.singleton_append]

/-- The whole body is judged. -/
theorem State.foldl_frame {s : State} (hunts : s.link.rx = .hunt) (free : s.link.syncHeld = false) {low high b : Byte}
    {bs : List Byte} (two : 2 ≤ natOfBytes [low, high]) (most : natOfBytes [low, high] ≤ 1026)
    (whole : bs.length + 1 = natOfBytes [low, high] + 2) :
    (0xC3 :: low :: high :: (bs ++ [b])).foldl State.takeByte s = s.judgeFrame low high (bs ++ [b]) := by
  rw [List.foldl_cons, State.takeByte_sync hunts free, List.foldl_cons, State.takeByte_low rfl, List.foldl_cons,
    State.takeByte_high rfl two most, List.foldl_append]
  simp only [State.setFrameRx_setFrameRx]
  rw [State.foldl_body s low high bs [] (by simp only [List.length_nil]; omega), List.nil_append, List.foldl_cons,
    State.takeByte_last rfl whole, State.judgeFrame_setFrameRx]
  rfl

/-- A body with a matching check is the request it carries. -/
theorem State.judgeFrame_good {s : State} {low high tag code : Byte} {payload check : List Byte}
    (len : natOfBytes [low, high] = payload.length + 2)
    (good : natOfBytes check = (frameCheck ([low, high] ++ ([tag, code] ++ payload))).toNat) :
    s.judgeFrame low high ([tag, code] ++ payload ++ check) =
      (s.setFrameRx .hunt).handFrame { tag := tag, code := code, payload := payload } := by
  have size : ([tag, code] ++ payload).length = payload.length + 2 := by
    simp only [List.length_append, List.length_cons, List.length_nil]; omega
  have covered : ([tag, code] ++ payload ++ check).take (payload.length + 2) = [tag, code] ++ payload := by
    rw [← size, List.take_left]
  have rest : ([tag, code] ++ payload ++ check).drop (payload.length + 2) = check := by
    rw [← size, List.drop_left]
  unfold State.judgeFrame
  simp only [len, covered, rest, if_pos good]
  rfl

theorem State.judgeFrame_bad {s : State} {low high : Byte} {got : List Byte}
    (bad : natOfBytes (got.drop (natOfBytes [low, high])) ≠
      (frameCheck ([low, high] ++ got.take (natOfBytes [low, high]))).toNat) :
    s.judgeFrame low high got = (s.setFrameRx .hunt).badCheck := if_neg bad

theorem State.handFrame_of_room {s : State} (room : s.link.buffer.length < 2) (req : Request) :
    s.handFrame req = { s with
      link := { s.link with buffer := s.link.buffer ++ [⟨req, false⟩] }
      stats := { s.stats with
        link := { s.stats.link with framesOk := satInc 0xFFFFFFFF s.stats.link.framesOk } } } := if_pos room

theorem State.handFrame_of_full {s : State} (full : 2 ≤ s.link.buffer.length) (req : Request) :
    s.handFrame req = { s with
      link := Link.addReply s.link
        { tag := req.tag, code := replyCode req.tag req.code, payload := [1], origin := .busy }
      stats := { s.stats with
        link := { s.stats.link with
          framesOk := satInc 0xFFFFFFFF s.stats.link.framesOk
          busyRefusals := satInc 0xFFFFFFFF s.stats.link.busyRefusals } } } := if_neg (Nat.not_lt.2 full)

theorem bytesOfNat_two (n : Nat) : bytesOfNat 2 n = [BitVec.ofNat 8 (n % 256), BitVec.ofNat 8 (n / 256 % 256)] := rfl

/-- The bytes of a frame reach a hunting receiver as their request (R130, R166, R169). -/
theorem State.foldl_frameBytes {s : State} (tag code : Byte) {payload : List Byte} (short : payload.length ≤ 1024)
    (hunts : s.link.rx = .hunt) (free : s.link.syncHeld = false) :
    (frameBytes tag code payload).foldl State.takeByte s =
      s.handFrame { tag := tag, code := code, payload := payload } := by
  have length := natOfBytes_bytesOfNat_two (n := payload.length + 2) (by omega)
  obtain ⟨low, high, lengthBytes⟩ : ∃ low high, bytesOfNat 2 (payload.length + 2) = [low, high] := ⟨_, _, bytesOfNat_two _⟩
  have check := natOfBytes_bytesOfNat_two (n := (frameCheck ([low, high] ++ [tag, code] ++ payload)).toNat)
    (frameCheck ([low, high] ++ [tag, code] ++ payload)).isLt
  obtain ⟨c0, c1, checkBytes⟩ : ∃ c0 c1,
      bytesOfNat 2 (frameCheck ([low, high] ++ [tag, code] ++ payload)).toNat = [c0, c1] := ⟨_, _, bytesOfNat_two _⟩
  rw [lengthBytes] at length
  rw [checkBytes] at check
  have frame : frameBytes tag code payload = 0xC3 :: low :: high :: ((tag :: code :: (payload ++ [c0])) ++ [c1]) := by
    rw [frameBytes, lengthBytes, checkBytes]
    simp
  have body : (tag :: code :: (payload ++ [c0])) ++ [c1] = [tag, code] ++ payload ++ [c0, c1] := by simp
  rw [frame, State.foldl_frame hunts free (by omega) (by omega) (by simp; omega), body,
    State.judgeFrame_good length (by rw [check, List.append_assoc]), State.setFrameRx_self hunts]

theorem exec_frameReceived_frame (tag code : Byte) (payload : List Byte) (s : State) (short : payload.length ≤ 1024)
    (hunts : s.link.rx = .hunt) (free : s.link.syncHeld = false)
    (ready : s.link.bytes = { level := .mark, awaitingMark := false, current := none }) :
    exec (.frameReceived (linkSamples (frameBytes tag code payload))) s =
      .next (s.handFrame { tag := tag, code := code, payload := payload }) :=
  congrArg Host.Outcome.next ((takeLinkSamples_bytes _ s ready).trans (State.foldl_frameBytes tag code short hunts free))

/-! ### The byte receiver, sample by sample (R165) -/

theorem State.takeLinkSamples_one (s : State) (p : PinLevel) : s.takeLinkSamples [p] = s.takeLinkSample p := rfl

/-- Between bytes a sample moves the byte receiver alone. -/
theorem State.takeLinkSample_idle {s : State} (idle : s.link.bytes.current = none) (p : PinLevel) :
    s.takeLinkSample p = s.setLink { s.link with bytes := s.link.bytes.sampleIdle (Sense.normal.apply p) } := by
  unfold State.takeLinkSample ByteReceiver.sample
  rw [idle]

theorem ByteReceiver.sampleIdle_mark {r : ByteReceiver} (idle : r.current = none) :
    r.sampleIdle .mark = { level := .mark, awaitingMark := false, current := none } := by
  rw [ByteReceiver.sampleIdle, ← idle]

theorem ByteReceiver.sampleIdle_space {r : ByteReceiver} (noFall : r.awaitingMark = true ∨ r.level = .space) :
    r.sampleIdle .space = { r with level := .space } := by
  refine if_neg fun ⟨seen, mark⟩ => ?_
  rcases noFall with h | h
  · exact absurd (seen.symm.trans h) (by simp)
  · exact absurd (mark.symm.trans h) (by simp)

theorem ByteReceiver.sampleIdle_fall {r : ByteReceiver} (seen : r.awaitingMark = false) (mark : r.level = .mark) :
    r.sampleIdle .space =
      { r with level := .space, current := some { place := 1, vote7 := .mark, vote8 := .mark, slots := [] } } :=
  if_pos ⟨seen, mark⟩

theorem exec_frameReceived_idle (s : State) (r : ByteReceiver) (e : r = s.link.bytes) (idle : r.current = none) :
    exec (.frameReceived [.high]) s =
      .next { s with link := { s.link with bytes := { level := .mark, awaitingMark := false, current := none } } } ∧
    (r.awaitingMark = true ∨ r.level = .space →
      exec (.frameReceived [.low]) s = .next { s with link := { s.link with bytes := { r with level := .space } } }) ∧
    (r.awaitingMark = false → r.level = .mark →
      ∃ c : ByteInReception, c.place = 1 ∧ c.slots = [] ∧ exec (.frameReceived [.low]) s =
        .next { s with link := { s.link with bytes := { r with level := .space, current := some c } } }) := by
  subst e
  have row : ∀ p, exec (.frameReceived [p]) s =
      .next (s.setLink { s.link with bytes := s.link.bytes.sampleIdle (Sense.normal.apply p) }) := fun p =>
    congrArg Host.Outcome.next (State.takeLinkSample_idle idle p)
  refine ⟨?_, fun noFall => ?_, fun seen mark => ⟨⟨1, .mark, .mark, []⟩, rfl, rfl, ?_⟩⟩
  · rw [row, show Sense.normal.apply .high = .mark from rfl, ByteReceiver.sampleIdle_mark idle]; rfl
  · rw [row, show Sense.normal.apply .low = .space from rfl, ByteReceiver.sampleIdle_space noFall]; rfl
  · rw [row, show Sense.normal.apply .low = .space from rfl, ByteReceiver.sampleIdle_fall seen mark]; rfl

/-- While the receiver waits for mark, space gives nothing. -/
theorem State.takeLinkSamples_space {s : State} (h : s.link.bytes = { level := .space, awaitingMark := true, current := none })
    (n : Nat) : s.takeLinkSamples (List.replicate n .low) = s := by
  have one : s.takeLinkSample .low = s := by
    rw [State.takeLinkSample_idle (by rw [h]), show Sense.normal.apply .low = .space from rfl,
      ByteReceiver.sampleIdle_space (.inl (by rw [h])), h]
    exact congrArg (fun b => s.setLink { s.link with bytes := b }) h.symm
  induction n with
  | zero => rfl
  | succ n ih => rw [List.replicate_succ, State.takeLinkSamples, one, ih]

theorem linkLevel_eq (p : PinLevel) : linkLevel p = if p = .high then .mark else .space := by cases p <;> rfl

/-- A slot is decided mark by two of the three samples. -/
theorem slotLevel_eq_mark_iff (x : Nat → PinLevel) : slotLevel x = .mark ↔
    (x 6 = .high ∧ x 7 = .high) ∨ (x 6 = .high ∧ x 8 = .high) ∨ (x 7 = .high ∧ x 8 = .high) := by
  unfold slotLevel
  generalize x 6 = a, x 7 = b, x 8 = c
  revert a b c
  intro a b c
  cases a <;> cases b <;> cases c <;> decide

theorem Level.eq_of_mark_iff {a b : Level} (h : a = .mark ↔ b = .mark) : a = b := by
  cases a <;> cases b <;> simp_all

/-- A start bit decided mark gives no byte. -/
theorem State.takeLinkSamples_noStart {s : State} {x : Nat → PinLevel} (ready : s.link.bytes = ByteReceiver.ready)
    (fall : x 0 = .low) (mark : slotLevel x = .mark) :
    s.takeLinkSamples ((List.range 9).map x) =
      s.setLink { s.link with bytes := { level := linkLevel (x 8), awaitingMark := false, current := none } } := by
  have space : Sense.normal.apply (x 0) = .space := by rw [fall]; rfl
  simp only [slotLevel, linkLevel] at mark
  simp [List.range_succ, State.takeLinkSamples, State.takeLinkSample, ByteReceiver.sample, ByteReceiver.sampleByte,
    ByteReceiver.sampleIdle, ByteReceiver.ready, State.setLink, linkLevel, ready, space, mark]

/-- A byte is the eight levels decided, least significant first. -/
theorem byteOfLevels_eq {b : Byte} {level : Nat → Level} (bits : ∀ k : Fin 8, b.getLsbD k.val = true ↔ level k.val = .mark) :
    byteOfLevels ((List.range 8).map level) = b := by
  refine BitVec.eq_of_getLsbD_eq fun k hk => ?_
  rw [byteOfLevels, byteOfBits_getLsbD (by simp), List.getElem?_map, List.getElem?_map, List.getElem?_range hk]
  have bit := bits ⟨k, hk⟩
  show isMark (level k) = b.getLsbD k
  cases e : level k with
  | mark => exact (bit.2 e).symm
  | space =>
    refine (Bool.eq_false_iff.2 fun set => ?_).symm
    exact absurd (e.symm.trans (bit.1 set)) (by simp)

theorem exec_frameReceived_slots (x : Nat → Nat → PinLevel) (bit : Nat → Level) (s : State)
    (ready : s.link.bytes = { level := .mark, awaitingMark := false, current := none }) (fall : x 0 0 = .low)
    (decided : ∀ j, bit j = .mark ↔
      (x j 6 = .high ∧ x j 7 = .high) ∨ (x j 6 = .high ∧ x j 8 = .high) ∨ (x j 7 = .high ∧ x j 8 = .high)) :
    (bit 0 = .mark →
      exec (.frameReceived ((List.range 9).map (x 0))) s =
        .next { s with link := { s.link with
          bytes := { level := if x 0 8 = .high then .mark else .space, awaitingMark := false, current := none } } }) ∧
    (bit 0 = .space → ∀ b : Byte, (∀ k : Fin 8, b.getLsbD k.val = true ↔ bit (k.val + 1) = .mark) →
      exec (.frameReceived ((List.range 10).flatMap (fun j => (List.range 16).map (x j)))) s =
        .next (State.takeByte { s with link := { s.link with
          bytes := { level := if x 9 15 = .high then .mark else .space, awaitingMark := decide (bit 9 = .space)
                     current := none } } } b)) := by
  have level : ∀ j, slotLevel (x j) = bit j := fun j =>
    Level.eq_of_mark_iff ((slotLevel_eq_mark_iff (x j)).trans (decided j).symm)
  refine ⟨fun mark => ?_, fun space b bits => ?_⟩
  · refine congrArg Host.Outcome.next ((State.takeLinkSamples_noStart ready fall ((level 0).trans mark)).trans ?_)
    rw [linkLevel_eq]; rfl
  · refine congrArg Host.Outcome.next ((takeByteSlots s x ready fall ((level 0).trans space)).trans ?_)
    have byte : byteOfLevels ((List.range 8).map (fun j => slotLevel (x (j + 1)))) = b := by
      simp only [level]
      exact byteOfLevels_eq (level := fun j => bit (j + 1)) bits
    rw [byte, level, linkLevel_eq]; rfl

/-- A long stretch of space is one byte of 0x00. -/
theorem exec_frameReceived_space (s : State) (n : Nat)
    (ready : s.link.bytes = { level := .mark, awaitingMark := false, current := none }) :
    exec (.frameReceived (List.replicate (160 + n) .low)) s =
      .next (State.takeByte { s with link := { s.link with
        bytes := { level := .space, awaitingMark := true, current := none } } } 0) := by
  have slots : List.replicate 160 PinLevel.low = slotSamples (fun _ _ => .low) 10 := by decide +kernel
  refine congrArg Host.Outcome.next ?_
  show s.takeLinkSamples (List.replicate (160 + n) .low) = _
  rw [List.replicate_add, State.takeLinkSamples_append, slots, takeByteSlots s _ ready rfl rfl]
  exact State.takeLinkSamples_space (State.takeByte_bytes _ _) n

theorem takeByte_cases (b : Byte) (s : State) :
    (s.link.rx = .hunt →
      (b ≠ 0xC3 ∨ s.link.syncHeld = true → s.takeByte b = s) ∧
      (b = 0xC3 → s.link.syncHeld = false → s.takeByte b = { s with link := { s.link with rx := .header } })) ∧
    (s.link.rx = .header → s.takeByte b = { s with link := { s.link with rx := .headerLow b } }) ∧
    (∀ low, s.link.rx = .headerLow low → 2 ≤ natOfBytes [low, b] → natOfBytes [low, b] ≤ 1026 →
      s.takeByte b = { s with link := { s.link with rx := .body low b [] } }) ∧
    ∀ low high got, s.link.rx = .body low high got → got.length + 1 < natOfBytes [low, high] + 2 →
      s.takeByte b = { s with link := { s.link with rx := .body low high (got ++ [b]) } } :=
  ⟨fun hunts => ⟨State.takeByte_skip hunts, fun sync free => sync ▸ State.takeByte_sync hunts free⟩,
    fun h => State.takeByte_low h b, fun _ h two most => State.takeByte_high h two most,
    fun _ _ _ h more => State.takeByte_more h more⟩

/-- Settles O9. -/
theorem goodFrameReceived : Obligations.GoodFrameReceived := by
  refine ⟨fun tag code payload s short hunts free ready => ⟨fun room => ?_, fun full => ?_⟩, linkSamples_eq,
    fun tag code payload covered e => ?_, ⟨rfl, frameCheck_step⟩, Link.syncHeld_iff, fun a b s t taken => ?_,
    exec_frameReceived_idle, exec_frameReceived_slots, exec_frameReceived_space, takeByte_cases⟩
  · rw [exec_frameReceived_frame tag code payload s short hunts free ready, State.handFrame_of_room room]
  · rw [exec_frameReceived_frame tag code payload s short hunts free ready, State.handFrame_of_full full]
    rfl
  · rw [e]; rfl
  · cases taken
    exact congrArg Host.Outcome.next (State.takeLinkSamples_append s a b)

/-! ### Frames discarded (R166 to R168) -/

/-- Fifteen samples of a stop bit at mark bring the byte to its last sample. -/
theorem State.takeLinkSamples_stopBit (s : State) {v7 v8 l : Level} {w : Bool} {slots : List Level}
    (h : s.link.bytes = { level := l, awaitingMark := w, current := some ⟨0, v7, v8, slots⟩ })
    (nine : slots.length = 9) :
    s.takeLinkSamples (List.replicate 15 .high) = s.setLink { s.link with
      bytes := { level := .mark, awaitingMark := w, current := some ⟨15, .mark, .mark, slots ++ [.mark]⟩ } } := by
  have some : slots ≠ [] := by rintro rfl; cases nine
  have mark : Sense.normal.apply .high = .mark := rfl
  simp [List.replicate, State.takeLinkSamples, State.takeLinkSample, ByteReceiver.sample, ByteReceiver.sampleByte,
    State.setLink, majority, mark, h, some]

/-- The last sample of the stop bit delivers the byte. -/
theorem ByteReceiver.sample_last {l v7 v8 : Level} {w : Bool} {slots : List Level} (ten : slots.length = 10) (p : Level) :
    (ByteReceiver.sample { level := l, awaitingMark := w, current := some ⟨15, v7, v8, slots⟩ } p).2 =
      some (byteOfLevels ((slots.drop 1).take 8)) := by
  simp [ByteReceiver.sample, ByteReceiver.sampleByte, ten]

/-- An undisturbed byte's samples, with the last of them apart. -/
theorem linkSamples_singleton (b : Byte) :
    linkSamples [b] = slotSamples (fun j _ => Sense.normal.drive ((linkLevels b)[j]?.getD .mark)) 9 ++
      List.replicate 15 .high ++ [.high] := by
  have e : linkSamples [b] =
      slotSamples (fun j _ => Sense.normal.drive ((linkLevels b)[j]?.getD .mark)) 10 := rfl
  rw [e, slotSamples_succ, List.append_assoc]
  rfl

theorem slotLevels_steady (b : Byte) :
    (List.range 9).map (fun j => slotLevel (fun _ => Sense.normal.drive ((linkLevels b)[j]?.getD .mark))) =
      .space :: levelsOfByte b := by
  simp [List.range_succ, slotLevel_steady, linkLevels, levelsOfByte]

theorem endsInBadLength_append {s : State} {samples : List PinLevel} {last : PinLevel} {low high : Byte}
    (rx : (s.takeLinkSamples samples).link.rx = .headerLow low)
    (delivers : ((s.takeLinkSamples samples).link.bytes.sample (Sense.normal.apply last)).2 = some high) :
    endsInBadLength s (samples ++ [last]) = badLength low high := by
  simp only [endsInBadLength, List.dropLast_concat, List.getLast?_concat, rx, Option.bind_some, delivers]

/-- The last sample of an undisturbed byte completes a length field that is out of range. -/
theorem endsInBadLength_of_byte {s : State} {low high : Byte} (h : s.link.rx = .headerLow low)
    (ready : s.link.bytes = ByteReceiver.ready) (bad : natOfBytes [low, high] < 2 ∨ 1026 < natOfBytes [low, high]) :
    endsInBadLength s (linkSamples [high]) = true := by
  have data := takeDataSlots s (fun j _ => Sense.normal.drive ((linkLevels high)[j]?.getD .mark)) ready rfl rfl 8
    (le_refl 8)
  rw [slotLevels_steady] at data
  have before := (State.takeLinkSamples_append s _ (List.replicate 15 .high)).trans
    ((congrArg (·.takeLinkSamples (List.replicate 15 .high)) data).trans (State.takeLinkSamples_stopBit _ rfl rfl))
  have delivers := ByteReceiver.sample_last (l := .mark) (v7 := .mark) (v8 := .mark) (w := false)
    (slots := .space :: levelsOfByte high ++ [.mark]) rfl (Sense.normal.apply .high)
  have byte : byteOfLevels (((Level.space :: levelsOfByte high ++ [Level.mark]).drop 1).take 8) = high :=
    byteOfLevels_levelsOfByte high
  rw [byte] at delivers
  rw [linkSamples_singleton, endsInBadLength_append (low := low) (high := high)]
  · exact (badLength_iff low high).2 bad
  · rw [before]; exact h
  · rw [before]; exact delivers

/-- Settles O10. -/
theorem badFramesDiscarded : Obligations.BadFramesDiscarded := by
  refine ⟨fun b low high got s h ready last bad => congrArg Host.Outcome.next ?_,
    fun low high s h ready bad => congrArg Host.Outcome.next ?_, fun s inside => congrArg Host.Outcome.next ?_⟩
  · rw [takeLinkSamples_byte s b ready, State.takeByte_last h last, State.judgeFrame_bad]
    · rfl
    · have short : natOfBytes [low, high] ≤ got.length := by omega
      rwa [List.take_append_of_le_length short]
  · rw [if_pos (endsInBadLength_of_byte h ready bad), takeLinkSamples_byte s high ready,
      State.takeByte_badLength h bad]
    rfl
  · unfold State.frameTimeout
    split
    · next hunts => exact absurd hunts inside
    all_goals rfl

end Sys2Proof.Machine

/-! PROOFS. The requests that read, and STATS_READ (R136, R137, R144). -/

namespace Sys2Proof.Machine

/-! ### Numbers up to the last -/

@[simp] theorem withLine_quad (s : State) (i : LineId) (act : LineId → Answer) : withLine s (quadByte i) act = act i := by
  rw [withLine, quadOfByte_quadByte]

@[simp] theorem withUnit_quad (s : State) (u : UnitId) (act : UnitId → Answer) : withUnit s (quadByte u) act = act u := by
  rw [withUnit, quadOfByte_quadByte]

@[simp] theorem withRegion_quad (s : State) (id : RegionId) (act : RegionId → Answer) :
    withRegion s (quadByte id) act = act id := by
  rw [withRegion, quadOfByte_quadByte]

/-! ### The reading requests -/

theorem lineStatusContent_eq (i : LineId) (r : Receiver) : lineStatusContent i r =
    [quadByte i, r.state.code, byteOfBits [r.stopPending, r.startPending, r.awaitingMark, decide (r.level = .space)],
      BitVec.ofNat 8 r.idle, BitVec.ofNat 8 (if r.state = .settle then r.markRun / 16 else 0)] := by
  unfold lineStatusContent Receiver.shownRun
  cases r.state <;> rfl

theorem txStatusContent_eq (i : LineId) (u : TxUnit) : txStatusContent i u =
    [quadByte i, u.state.code, BitVec.ofNat 8 u.queue.length,
      match u.lastOutcome with
      | some .ok => 0
      | some .collision => 1
      | some .aborted => 2
      | none => 3] := by
  unfold txStatusContent
  cases u.lastOutcome with
  | none => rfl
  | some o => cases o <;> rfl

theorem seqStatusContent_eq (q : Sequencer) : seqStatusContent q =
    [q.state.code, BitVec.ofNat 8 q.table.length, BitVec.ofNat 8 q.current.val] ++
      bytesOfNat 2 q.occurrence ++ [q.guardGen, q.flags] ++
      [match q.link with | none => 0xFF | some r => BitVec.ofNat 8 r.val] ++
      [BitVec.ofNat 8 q.queue.length, q.cause.code, byteOfBits [q.out.asserted], byteOfBits [q.lastFire.isSome]] ++
      match q.lastFire with
      | none => [0, 0, 0, 0, 0, 0, 0]
      | some f => [BitVec.ofNat 8 f.step.val, BitVec.ofNat 8 f.cause.code] ++ bytesOfNat 4 f.time.toNat ++ [f.tag] := by
  unfold seqStatusContent
  cases q.link <;> cases q.lastFire <;> simp [byteOfBits, triggerPayload]

/-- Settles O11. -/
theorem readingRequests : Obligations.ReadingRequests := by
  refine ⟨fun l k short => byteOfBits_bit_iff short k, ⟨?_, ?_, ?_, ?_, ?_, ?_, ?_, ?_, ?_⟩,
    ⟨fun tag s s1 hTaken => exec_ok hTaken rfl rfl rfl, fun tag s s1 hTaken => exec_ok hTaken rfl rfl rfl,
      fun tag u s s1 hTaken => exec_ok hTaken rfl (withUnit_quad ..) rfl⟩,
    ⟨fun tag i s s1 hTaken => exec_ok hTaken rfl ((withLine_quad ..).trans ?_) rfl,
      fun tag i s s1 hTaken => exec_ok hTaken rfl ((withLine_quad ..).trans ?_) rfl⟩,
    fun tag e s s1 hTaken => exec_ok hTaken rfl ?_ rfl, fun tag s s1 hTaken => exec_ok hTaken rfl ?_ rfl,
    fun tag id s s1 hTaken => exec_ok hTaken rfl ((withRegion_quad ..).trans ?_) rfl⟩
  iterate 9 exact fun c => by cases c <;> rfl
  · exact congrArg (Answer.ok s1) (lineStatusContent_eq ..)
  · exact congrArg (Answer.ok s1) (txStatusContent_eq ..)
  · exact (by rw [filterRead, filterIndex_ofNat] : filterRead s1 (BitVec.ofNat 8 e.val) = _)
  · exact congrArg (Answer.ok s1) (seqStatusContent_eq _)
  · rfl

/-! ### Counters and their bytes (R136, R137) -/

theorem satInc_cases (max n : Nat) : (n < max → satInc max n = n + 1) ∧ (max ≤ n → satInc max n = n) :=
  ⟨fun h => if_pos h, fun h => if_neg (Nat.not_lt.2 h)⟩

theorem bytesOfNat_length (n v : Nat) : (bytesOfNat n v).length = n := by
  induction n generalizing v with
  | zero => rfl
  | succ n ih => rw [bytesOfNat, List.length_cons, ih]

theorem bytesOfNat_getElem? {n v k : Nat} {b : Byte} (h : (bytesOfNat n v)[k]? = some b) :
    b.toNat = v / 256 ^ k % 256 := by
  induction n generalizing v k with
  | zero => simp [bytesOfNat] at h
  | succ n ih =>
    cases k with
    | zero =>
      obtain rfl : BitVec.ofNat 8 (v % 256) = b := by simpa [bytesOfNat] using h
      simp [BitVec.toNat_ofNat]
    | succ k =>
      rw [ih (v := v / 256) (k := k) (by simpa [bytesOfNat] using h), Nat.div_div_eq_div_mul, pow_succ']

theorem StatsGroup.ofCode_line (i : LineId) : StatsGroup.ofCode (quadByte i) = some (.line i) := by revert i; decide

theorem StatsGroup.ofCode_region (id : RegionId) : StatsGroup.ofCode (5 + quadByte id) = some (.region id) := by
  revert id; decide

theorem StatsGroup.ofCode_above {b : Byte} (h : 10 < b.toNat) : StatsGroup.ofCode b = none := by
  have other : ∀ n : Byte, n.toNat ≤ 10 → b ≠ n := by rintro n small rfl; omega
  rw [StatsGroup.ofCode, dif_neg (by omega), if_neg (other 4 (by decide)), dif_neg (by omega),
    if_neg (other 9 (by decide)), if_neg (other 10 (by decide))]

theorem vector_toList_seven (v : Vector Nat 7) : v.toList = [v[0], v[1], v[2], v[3], v[4], v[5], v[6]] := by
  refine List.ext_getElem (by simp) fun k hk _ => ?_
  have seven : k < 7 := by simpa using hk
  interval_cases k <;> simp

theorem LineStats.bytes_eq (g : LineStats) : g.bytes = bytesOfNat 6 g.chars ++
    [g.messages, g.recorded, g.filtered, g.lost, g.truncated, g.parityChars, g.framingChars, g.noiseChars,
      g.falseStarts, g.breaks, g.buckets[0], g.buckets[1], g.buckets[2], g.buckets[3], g.buckets[4], g.buckets[5],
      g.buckets[6], g.txOk, g.txCollision, g.txAborted, g.txDeferred, g.txRefused].flatMap (bytesOfNat 4) := by
  rw [LineStats.bytes, vector_toList_seven]
  rfl

theorem hitBytes_eq (s : State) :
    hitBytes s.filters = (List.finRange 32).flatMap (fun e => bytesOfNat 4 (s.filter e).hits) := by
  have table : s.filters.toList = (List.finRange 32).map s.filter := by
    refine List.ext_getElem (by simp) fun k hk _ => ?_
    simp [State.filter]
  rw [hitBytes, table, List.map_map, List.flatMap_map]
  rfl

/-! ### STATS_READ (R144) -/

theorem statsRead_of_unknown {g : Byte} (h : StatsGroup.ofCode g = none) (s : State) (c : Byte) :
    statsRead s g c = .refuse s .range := by rw [statsRead, h]

theorem statsRead_of_flag {c : Byte} (h : 1 < c.toNat) (s : State) (g : Byte) : statsRead s g c = .refuse s .range := by
  have notZero : c ≠ 0 := by rintro rfl; simp at h
  have notOne : c ≠ 1 := by rintro rfl; simp at h
  unfold statsRead
  split
  · rfl
  · rw [if_neg notZero, if_neg notOne]

theorem statsRead_of_read {g : Byte} {group : StatsGroup} (h : StatsGroup.ofCode g = some group) (s : State) :
    statsRead s g 0 = .ok s (g :: s.groupBytes group) := by rw [statsRead, h]; rfl

theorem statsRead_of_clear {g : Byte} {group : StatsGroup} (h : StatsGroup.ofCode g = some group) (s : State) :
    statsRead s g 1 = .ok (s.clearGroup group) (g :: s.groupBytes group) := by rw [statsRead, h]; rfl

theorem groupBytes_clearGroup (s : State) (group : StatsGroup) : ∀ b ∈ (s.clearGroup group).groupBytes group, b = 0 := by
  cases group with
  | line i =>
    have same : (s.clearGroup (.line i)).groupBytes (.line i) = State.reset.groupBytes (.line i) := by
      rw [State.groupBytes, State.groupBytes, State.clearGroup, State.lineStats_setLineStats_same, State.reset,
        State.lineStats_afterReset]
    rw [same]
    exact groupBytes_reset (.line i)
  | filters =>
    refine counters_zero 4 fun n listed => ?_
    simp only [State.clearGroup, Vector.toList_map, List.map_map, List.mem_map, Function.comp] at listed
    obtain ⟨f, -, rfl⟩ := listed
    rfl
  | region id =>
    have same : (s.clearGroup (.region id)).groupBytes (.region id) = (s.region id).clearCounters.counterBytes := by
      rw [State.groupBytes, State.clearGroup, State.region_setRegion_same]
    rw [same]
    exact counters_zero 4 fun n listed => by simpa [Region.clearCounters] using listed
  | seq => exact counters_zero 4 fun n listed => by simpa [State.clearGroup] using listed
  | link => exact groupBytes_reset .link

theorem groupBytes_clearGroup_other {s : State} {group other : StatsGroup} (different : other ≠ group) :
    (s.clearGroup group).groupBytes other = s.groupBytes other := by
  cases group with
  | line i =>
    cases other with
    | line j =>
      have apart : i ≠ j := fun e => different (e ▸ rfl)
      rw [State.groupBytes, State.groupBytes, State.clearGroup, State.lineStats_setLineStats_other _ _ _ _ apart]
    | filters | region | seq | link => rfl
  | filters =>
    cases other with
    | filters => exact absurd rfl different
    | line | region | seq | link => rfl
  | region id =>
    cases other with
    | region j =>
      have apart : id ≠ j := fun e => different (e ▸ rfl)
      rw [State.groupBytes, State.groupBytes, State.clearGroup, State.region_setRegion_other _ _ _ _ apart]
    | line | filters | seq | link => rfl
  | seq =>
    cases other with
    | seq => exact absurd rfl different
    | line | filters | region | link => rfl
  | link =>
    cases other with
    | link => exact absurd rfl different
    | line | filters | region | seq => rfl

/-- Clearing a group leaves everything that is no counter. -/
theorem clearGroup_keeps (s : State) (group : StatsGroup) :
    (s.clearGroup group).lines = s.lines ∧ (s.clearGroup group).tb = s.tb ∧ (s.clearGroup group).pins = s.pins ∧
    (s.clearGroup group).timers = s.timers ∧ (s.clearGroup group).seq = s.seq ∧
    (s.clearGroup group).store.mem = s.store.mem ∧ (s.clearGroup group).canned = s.canned ∧
    (s.clearGroup group).link = s.link ∧
    (∀ id : RegionId, ((s.clearGroup group).region id).clearCounters = (s.region id).clearCounters) ∧
    ∀ e : Fin 32, ((s.clearGroup group).filter e).entry = (s.filter e).entry := by
  cases group with
  | line | seq | link => exact ⟨rfl, rfl, rfl, rfl, rfl, rfl, rfl, rfl, fun _ => rfl, fun _ => rfl⟩
  | filters =>
    exact ⟨rfl, rfl, rfl, rfl, rfl, rfl, rfl, rfl, fun _ => rfl, fun e => by simp [State.clearGroup, State.filter]⟩
  | region id =>
    refine ⟨rfl, rfl, rfl, rfl, rfl, rfl, rfl, rfl, fun j => ?_, fun _ => rfl⟩
    rw [State.clearGroup, State.region_setRegion]
    split_ifs with e
    · subst e; rfl
    · rfl

/-- Settles O12. -/
theorem statsReadAndClear : Obligations.StatsReadAndClear := by
  refine ⟨satInc_cases, ⟨StatsGroup.ofCode_line, rfl, StatsGroup.ofCode_region, rfl, rfl,
    fun _ => StatsGroup.ofCode_above⟩, fun s => ⟨?_, hitBytes_eq s, ?_, ?_, rfl⟩,
    fun n v => ⟨bytesOfNat_length n v, fun _ _ => bytesOfNat_getElem?⟩,
    fun tag g c s s1 hTaken => ⟨fun bad => ?_, fun group code => ⟨?_, ?_⟩⟩⟩
  · rintro i g rfl; exact LineStats.bytes_eq _
  · rintro id r rfl; rfl
  · simp [State.groupBytes]
  · rcases bad with unknown | flag
    · exact exec_range hTaken rfl (statsRead_of_unknown (StatsGroup.ofCode_above unknown) s1 c)
    · exact exec_range hTaken rfl (statsRead_of_flag flag s1 g)
  · rintro rfl
    exact exec_ok hTaken rfl (statsRead_of_read code s1) rfl
  · rintro rfl
    have keeps := clearGroup_keeps s1 group
    refine ⟨s1.clearGroup group, exec_ok hTaken rfl (statsRead_of_clear code s1) ?_, groupBytes_clearGroup s1 group,
      fun other different => groupBytes_clearGroup_other different, keeps⟩
    cases group <;> rfl

end Sys2Proof.Machine

/-! PROOFS. The lines' requests (R2, R5, R15, R35, R162), and that no block's act takes a RESET. -/

namespace Sys2Proof.Machine

/-! ### A RESET is taken by its request alone (R175) -/

@[simp] theorem sendFlags_resetTaken (s : State) (i : LineId) (flags : FlagSet) :
    (sendFlags s i flags).link.resetTaken = s.link.resetTaken := by
  by_cases h : flags = 0
  · rw [sendFlags_of_zero h]
  · rw [sendFlags_of_ne h, State.joinQueue_resetTaken]

@[simp] theorem offered_resetTaken (c : LineSettings) (i : LineId) (cause : EndCause) (m : Message) (a : FilterAnswer)
    (s : State) : (offered c i cause m a s).1.link.resetTaken = s.link.resetTaken := by
  unfold offered
  cases a.decision with
  | drop => rfl
  | record => exact State.offer_resetTaken ..

@[simp] theorem completeOpen_resetTaken (s : State) (i : LineId) (cause : EndCause) :
    (completeOpen s i cause).link.resetTaken = s.link.resetTaken := by
  cases h : (s.line i).msg with
  | none => rw [completeOpen_of_none h]
  | some m =>
    rw [completeOpen_of_some h, completeMessage_eq]
    exact (sendFlags_resetTaken ..).trans (offered_resetTaken ..)

@[simp] theorem assembleBreak_resetTaken (s : State) (i : LineId) (b : BreakInfo) :
    (assembleBreak s i b).link.resetTaken = s.link.resetTaken :=
  (State.offer_resetTaken ..).trans (completeOpen_resetTaken ..)

@[simp] theorem collisionReport_resetTaken (s : State) (i : LineId) :
    (collisionReport s i).link.resetTaken = s.link.resetTaken := by
  unfold collisionReport
  split <;> rfl

@[simp] theorem foundCollision_resetTaken (s : State) (i : LineId) :
    (foundCollision s i).link.resetTaken = s.link.resetTaken := by
  unfold foundCollision releaseIfHolding
  dsimp only
  split_ifs
  · exact (State.endTx_resetTaken ..).trans (collisionReport_resetTaken ..)
  · exact collisionReport_resetTaken ..

@[simp] theorem judgeHold_resetTaken (s : State) (i : LineId) :
    (judgeHold s i).link.resetTaken = s.link.resetTaken := by
  unfold judgeHold
  split_ifs
  · exact State.endTx_resetTaken ..
  · exact foundCollision_resetTaken ..

@[simp] theorem flushTx_resetTaken (s : State) (i : LineId) : (flushTx s i).link.resetTaken = s.link.resetTaken := by
  unfold flushTx
  dsimp only
  split
  · rfl
  · rfl
  · exact State.endTx_resetTaken ..
  · exact State.endTx_resetTaken ..
  · rfl
  · exact judgeHold_resetTaken ..

@[simp] theorem deliverBreak_resetTaken (s : State) (i : LineId) (b : BreakInfo) :
    (deliverBreak s i b).link.resetTaken = s.link.resetTaken := by
  unfold deliverBreak raceCollision
  split_ifs
  · exact (assembleBreak_resetTaken ..).trans (foundCollision_resetTaken ..)
  · exact (foundCollision_resetTaken ..).trans (assembleBreak_resetTaken ..)
  · exact assembleBreak_resetTaken ..

@[simp] theorem enterOff_resetTaken (s : State) (i : LineId) : (enterOff s i).link.resetTaken = s.link.resetTaken :=
  completeOpen_resetTaken ..

@[simp] theorem stopReceiver_resetTaken (s : State) (i : LineId) :
    (stopReceiver s i).link.resetTaken = s.link.resetTaken := by
  unfold stopReceiver
  dsimp only
  split
  · rfl
  · exact enterOff_resetTaken ..
  · exact enterOff_resetTaken ..
  · rfl
  · exact (enterOff_resetTaken ..).trans (deliverBreak_resetTaken ..)

@[simp] theorem stopLine_resetTaken (s : State) (i : LineId) : (stopLine s i).link.resetTaken = s.link.resetTaken := by
  unfold stopLine
  split_ifs
  · exact (stopReceiver_resetTaken ..).trans (flushTx_resetTaken ..)
  · exact (flushTx_resetTaken ..).trans (stopReceiver_resetTaken ..)
  · exact (stopReceiver_resetTaken ..).trans (flushTx_resetTaken ..)

/-! ### LINE_CONFIG and LINE_START (R2, R5) -/

theorem lineConfig_of_running {s : State} {i : LineId} (h : (s.line i).rx.state ≠ .off) (bytes : List Byte) :
    lineConfig s i bytes = .refuse s .state := if_pos h

theorem lineConfig_of_off {s : State} {i : LineId} (h : (s.line i).rx.state = .off) (bytes : List Byte) :
    lineConfig s i bytes =
      match parseLineSettings bytes with
      | none => .refuse s .range
      | some c => .ok (s.setCfg i c) [] := if_neg (not_not.2 h)

/-- Settles O13. -/
theorem lineConfigAndStart : Obligations.LineConfigAndStart := by
  refine ⟨fun tag i bytes s s1 length hTaken => ?_, fun tag i s s1 hTaken => ⟨fun running => ?_, fun off => ?_⟩⟩
  · have admitted : exactly 16 (quadByte i :: bytes).length = true := by simp [exactly, length]
    refine ⟨fun running => ?_, fun off bad => ?_, fun c off good => ?_⟩
    · exact exec_refuse hTaken admitted ((withLine_quad ..).trans (lineConfig_of_running running bytes))
    · refine exec_range hTaken admitted ((withLine_quad ..).trans ?_)
      rw [lineConfig_of_off off, bad]
    · refine exec_ok hTaken admitted ((withLine_quad ..).trans ?_) rfl
      rw [lineConfig_of_off off, good]
  · exact exec_refuse hTaken rfl ((withLine_quad ..).trans (if_neg running))
  · exact exec_ok hTaken rfl ((withLine_quad ..).trans (if_pos off)) rfl

/-! ### LINE_STOP (R15, R35, R162) -/

theorem lineStop_of_off {s : State} {i : LineId} (h : (s.line i).rx.state = .off) :
    lineStop s i = .refuse s .state := if_pos h

theorem lineStop_of_pending {s : State} {i : LineId} (h : (s.line i).rx.state ≠ .off)
    (pending : (s.line i).rx.stopPending = true) : lineStop s i = .ok s [] := (if_neg h).trans (if_pos pending)

theorem lineStop_of_running {s : State} {i : LineId} (h : (s.line i).rx.state ≠ .off)
    (pending : (s.line i).rx.stopPending = false) : lineStop s i = .ok (stopLine s i) [] :=
  (if_neg h).trans (if_neg (ne_true_of_eq_false pending))

/-- The two parts of a stop come in one of their orders. -/
theorem stopLine_cases (s : State) (i : LineId) :
    stopLine s i = stopReceiver (flushTx s i) i ∨ stopLine s i = stopReceiver (flushTx s.useFree i) i ∨
      stopLine s i = flushTx (stopReceiver s.useFree i) i := by
  unfold stopLine
  split_ifs
  · exact .inr (.inl rfl)
  · exact .inr (.inr rfl)
  · exact .inl rfl

theorem stopReceiver_of_waiting {s : State} {i : LineId}
    (h : (s.line i).rx.state = .settle ∨ (s.line i).rx.state = .hunt) : stopReceiver s i = enterOff s i := by
  rcases h with h | h <;> simp only [stopReceiver, h]

theorem stopReceiver_of_char {s : State} {i : LineId} (h : (s.line i).rx.state = .char) :
    stopReceiver s i = s.setRx i { (s.line i).rx with stopPending := true } := by
  simp only [stopReceiver, h]

theorem stopReceiver_of_breakHold {s : State} {i : LineId} (h : (s.line i).rx.state = .breakHold) :
    stopReceiver s i = enterOff (handBreak s i ((s.line i).rx.breakInfo true)) i := by
  simp only [stopReceiver, h]

theorem deliverBreak_of_quiet {s : State} {i : LineId} (h : (s.line i).tx.judging = false) (b : BreakInfo) :
    deliverBreak s i b = assembleBreak s i b := if_neg (ne_true_of_eq_false h)

/-- Settles O15. -/
theorem lineStopStops : Obligations.LineStopStops := by
  refine ⟨fun tag i s s1 hTaken => ⟨fun off => ?_, fun running pending => ?_, fun running free => ?_⟩,
    fun i u => ⟨stopReceiver_of_waiting, stopReceiver_of_char, fun hold => ⟨stopReceiver_of_breakHold hold, fun quiet => ?_⟩⟩⟩
  · exact exec_refuse hTaken rfl ((withLine_quad ..).trans (lineStop_of_off off))
  · exact exec_ok hTaken rfl ((withLine_quad ..).trans (lineStop_of_pending running pending)) rfl
  · exact ⟨stopLine s1 i, exec_ok hTaken rfl ((withLine_quad ..).trans (lineStop_of_running running free))
      (stopLine_resetTaken s1 i), stopLine_cases s1 i⟩
  · rw [stopReceiver_of_breakHold hold, handBreak, deliverBreak_of_quiet quiet]
    rfl

end Sys2Proof.Machine

/-! PROOFS. Payload layouts read back: settings, filter entries and step records from their bytes (R133 to R135). -/

namespace Sys2Proof.Machine

/-! ### Codes (R133 to R135) -/

theorem Format.ofCode_eq_some {b : Byte} {x : Format} : Format.ofCode b = some x ↔ b = x.code := by
  revert b; cases x <;> decide +kernel

theorem StopBits.ofCode_eq_some {b : Byte} {x : StopBits} : StopBits.ofCode b = some x ↔ b = x.code := by
  revert b; cases x <;> decide +kernel

theorem BitOrder.ofCode_eq_some {b : Byte} {x : BitOrder} : BitOrder.ofCode b = some x ↔ b = x.code := by
  revert b; cases x <;> decide +kernel

theorem Sense.ofCode_eq_some {b : Byte} {x : Sense} : Sense.ofCode b = some x ↔ b = x.code := by
  revert b; cases x <;> decide +kernel

theorem DelimMode.ofCode_eq_some {b : Byte} {x : DelimMode} : DelimMode.ofCode b = some x ↔ b = x.code := by
  revert b; cases x <;> decide +kernel

theorem Decision.ofCode_eq_some {b : Byte} {x : Decision} : Decision.ofCode b = some x ↔ b = x.code := by
  revert b; cases x <;> decide +kernel

theorem boolOfCode_eq_some {b : Byte} {x : Bool} : boolOfCode b = some x ↔ b = byteOfBits [x] := by
  revert b; cases x <;> decide +kernel

theorem Format.ofCode_isSome {b : Byte} (h : b.toNat ≤ 3) : ∃ x, Format.ofCode b = some x :=
  Option.isSome_iff_exists.1 (by revert b; decide +kernel)

theorem StopBits.ofCode_isSome {b : Byte} (low : b.toNat ≠ 0) (h : b.toNat ≤ 2) : ∃ x, StopBits.ofCode b = some x :=
  Option.isSome_iff_exists.1 (by revert b; decide +kernel)

theorem BitOrder.ofCode_isSome {b : Byte} (h : b.toNat ≤ 1) : ∃ x, BitOrder.ofCode b = some x :=
  Option.isSome_iff_exists.1 (by revert b; decide +kernel)

theorem Sense.ofCode_isSome {b : Byte} (h : b.toNat ≤ 1) : ∃ x, Sense.ofCode b = some x :=
  Option.isSome_iff_exists.1 (by revert b; decide +kernel)

theorem DelimMode.ofCode_isSome {b : Byte} (h : b.toNat ≤ 2) : ∃ x, DelimMode.ofCode b = some x :=
  Option.isSome_iff_exists.1 (by revert b; decide +kernel)

theorem Decision.ofCode_isSome {b : Byte} (h : b.toNat ≤ 1) : ∃ x, Decision.ofCode b = some x :=
  Option.isSome_iff_exists.1 (by revert b; decide +kernel)

theorem boolOfCode_isSome {b : Byte} (h : b.toNat ≤ 1) : ∃ x, boolOfCode b = some x :=
  Option.isSome_iff_exists.1 (by revert b; decide +kernel)

theorem quadOfByte_eq_some {b : Byte} {i : Fin 4} : quadOfByte b = some i ↔ b = quadByte i := by
  revert b i; decide +kernel

theorem flagOfByte_eq_some {b : Byte} {f : FlagId} : flagOfByte b = some f ↔ b = BitVec.ofNat 8 f.val := by
  revert b f; decide +kernel

theorem flagOptOfByte_eq_some {b : Byte} {f : Option FlagId} : flagOptOfByte b = some f ↔ b = byteOfFlagOpt f := by
  revert b f; decide +kernel

/-- The byte of an optional guard unit (R135). -/
def byteOfGuard : Option UnitId → Byte
  | none => 0xFF
  | some u => BitVec.ofNat 8 u.val

theorem guardOfByte_eq_some {b : Byte} {g : Option UnitId} : guardOfByte b = some g ↔ b = byteOfGuard g := by
  revert b g; decide +kernel

theorem quadSetOfByte_eq_some {b : Byte} {m : QuadSet} : quadSetOfByte b = some m ↔ b.toNat = m.toNat := by
  revert b m; decide +kernel

theorem AddressTest.ofCode_eq_some {n : Nat} {x : AddressTest} : AddressTest.ofCode n = some x ↔ n = x.code := by
  unfold AddressTest.ofCode
  cases x <;> split_ifs <;> simp [AddressTest.code] <;> omega

theorem ErrorClass.ofCode_eq_some {n : Nat} {x : ErrorClass} : ErrorClass.ofCode n = some x ↔ n = x.code := by
  unfold ErrorClass.ofCode
  cases x <;> split_ifs <;> simp [ErrorClass.code] <;> omega

theorem Origin.ofCode_eq_some {n : Nat} {x : Origin} : Origin.ofCode n = some x ↔ n = x.code := by
  unfold Origin.ofCode
  cases x <;> split_ifs <;> simp [Origin.code] <;> omega

theorem FilterAction.ofCode_eq_some {n : Nat} {x : FilterAction} : FilterAction.ofCode n = some x ↔ n = x.code := by
  unfold FilterAction.ofCode
  cases x <;> split_ifs <;> simp [FilterAction.code] <;> omega

theorem ActionTiming.ofCode_eq_some {n : Nat} {x : ActionTiming} : ActionTiming.ofCode n = some x ↔ n = x.code := by
  unfold ActionTiming.ofCode
  cases x <;> split_ifs <;> simp [ActionTiming.code] <;> omega

theorem ExitTarget.ofCode_eq_some {n : Nat} {x : ExitTarget} : ExitTarget.ofCode n = some x ↔ n = x.code := by
  unfold ExitTarget.ofCode
  cases x with
  | step i =>
    have := i.isLt
    split_ifs with low
    · simp [ExitTarget.code, Fin.ext_iff]
    · simp [ExitTarget.code]; omega
    · simp [ExitTarget.code]; omega
    · simp [ExitTarget.code]; omega
  | fire | ret => split_ifs <;> simp [ExitTarget.code] <;> omega

/-! ### Settings (R1, R19, R133, R148) -/

/-- Settings are read field by field. -/
theorem parseLineSettings_eq_some (d0 d1 fmt stop order sense mode gap m0 m1 region dflt permit access hold : Byte)
    (c : LineSettings) :
    parseLineSettings [d0, d1, fmt, stop, order, sense, mode, gap, m0, m1, region, dflt, permit, access, hold] = some c ↔
      inRange 0 4095 (natOfBytes [d0, d1]) = some c.divisor ∧ fmt = c.format.code ∧ stop = c.stopBits.code ∧
      order = c.bitOrder.code ∧ sense = c.sense.code ∧ mode = c.mode.code ∧
      inRange 2 255 gap.toNat = some c.gapThreshold ∧ inRange 1 256 (natOfBytes [m0, m1]) = some c.maxLength ∧
      region = quadByte c.region ∧ dflt = c.defaultAction.code ∧ permit = byteOfBits [c.txPermitted] ∧
      access.toNat = c.accessGap ∧ inRange 1 16 hold.toNat = some c.hold := by
  simp only [← Format.ofCode_eq_some, ← StopBits.ofCode_eq_some, ← BitOrder.ofCode_eq_some, ← Sense.ofCode_eq_some,
    ← DelimMode.ofCode_eq_some, ← Decision.ofCode_eq_some, ← boolOfCode_eq_some, ← quadOfByte_eq_some]
  constructor
  · intro h
    simp only [parseLineSettings, Option.bind_eq_bind, Option.bind_eq_some_iff, Option.pure_def, Option.some.injEq] at h
    obtain ⟨_, h1, _, h2, _, h3, _, h4, _, h5, _, h6, _, h7, _, h8, _, h9, _, h10, _, h11, _, h12, rfl⟩ := h
    exact ⟨h1, h2, h3, h4, h5, h6, h7, h8, h9, h10, h11, rfl, h12⟩
  · rintro ⟨h1, h2, h3, h4, h5, h6, h7, h8, h9, h10, h11, access, h12⟩
    simp only [parseLineSettings, h1, h2, h3, h4, h5, h6, h7, h8, h9, h10, h11, h12, access]
    rfl

theorem inRange_iff {lo hi n k : Nat} : inRange lo hi n = some k ↔ n = k ∧ lo ≤ n ∧ n ≤ hi := by
  refine ⟨inRange_eq_some, ?_⟩
  rintro ⟨rfl, inside⟩
  exact if_pos inside

theorem inRange_self {lo hi n : Nat} (low : lo ≤ n) (high : n ≤ hi) : inRange lo hi n = some n :=
  inRange_iff.2 ⟨rfl, low, high⟩

/-- What a payload that reads as settings says of each of its fields. -/
theorem parseLineSettings_fields (d0 d1 fmt stop order sense mode gap m0 m1 region dflt permit access hold : Byte)
    {c : LineSettings}
    (h : parseLineSettings [d0, d1, fmt, stop, order, sense, mode, gap, m0, m1, region, dflt, permit, access, hold] =
      some c) :
    c.divisor = natOfBytes [d0, d1] ∧
    fmt.toNat = (match c.format with | .f8N => 0 | .f8E => 1 | .f8O => 2 | .f8A => 3) ∧
    stop.toNat = (match c.stopBits with | .one => 1 | .two => 2) ∧
    order.toNat = (match c.bitOrder with | .lsbFirst => 0 | .msbFirst => 1) ∧
    sense.toNat = (match c.sense with | .normal => 0 | .inverted => 1) ∧
    mode.toNat = (match c.mode with | .gap => 0 | .address => 1 | .addressGap => 2) ∧
    c.gapThreshold = gap.toNat ∧ c.maxLength = natOfBytes [m0, m1] ∧ c.region.val = region.toNat ∧
    dflt.toNat = (match c.defaultAction with | .record => 0 | .drop => 1) ∧
    permit.toNat = (if c.txPermitted then 1 else 0) ∧ c.accessGap = access.toNat ∧ c.hold = hold.toNat := by
  obtain ⟨divisor, rfl, rfl, rfl, rfl, rfl, gap, most, rfl, rfl, rfl, access, hold⟩ :=
    (parseLineSettings_eq_some _ _ _ _ _ _ _ _ _ _ _ _ _ _ _ c).1 h
  refine ⟨(inRange_iff.1 divisor).1.symm, ?_, ?_, ?_, ?_, ?_, (inRange_iff.1 gap).1.symm, (inRange_iff.1 most).1.symm, ?_, ?_,
    ?_, access.symm, (inRange_iff.1 hold).1.symm⟩
  · cases c.format <;> rfl
  · cases c.stopBits <;> rfl
  · cases c.bitOrder <;> rfl
  · cases c.sense <;> rfl
  · cases c.mode <;> rfl
  · generalize c.region = r; revert r; decide
  · cases c.defaultAction <;> rfl
  · cases c.txPermitted <;> rfl

/-- Settings are none exactly when a value is out of range (R2). -/
theorem parseLineSettings_eq_none (d0 d1 fmt stop order sense mode gap m0 m1 region dflt permit access hold : Byte) :
    parseLineSettings [d0, d1, fmt, stop, order, sense, mode, gap, m0, m1, region, dflt, permit, access, hold] = none ↔
      4095 < natOfBytes [d0, d1] ∨ 3 < fmt.toNat ∨ stop.toNat = 0 ∨ 2 < stop.toNat ∨ 1 < order.toNat ∨
        1 < sense.toNat ∨ 2 < mode.toNat ∨ gap.toNat < 2 ∨ natOfBytes [m0, m1] = 0 ∨ 256 < natOfBytes [m0, m1] ∨
        3 < region.toNat ∨ 1 < dflt.toNat ∨ 1 < permit.toNat ∨ hold.toNat = 0 ∨ 16 < hold.toNat := by
  constructor
  · intro isNone
    by_contra inside
    simp only [not_or, not_lt] at inside
    obtain ⟨h1, h2, h3, h4, h5, h6, h7, h8, h9, h10, h11, h12, h13, h14, h15⟩ := inside
    obtain ⟨format, e2⟩ := Format.ofCode_isSome h2
    obtain ⟨stops, e3⟩ := StopBits.ofCode_isSome h3 h4
    obtain ⟨bits, e4⟩ := BitOrder.ofCode_isSome h5
    obtain ⟨lineSense, e5⟩ := Sense.ofCode_isSome h6
    obtain ⟨delim, e6⟩ := DelimMode.ofCode_isSome h7
    obtain ⟨action, e7⟩ := Decision.ofCode_isSome h12
    obtain ⟨permitted, e8⟩ := boolOfCode_isSome h13
    have e9 : quadOfByte region = some ⟨region.toNat, by omega⟩ := dif_pos (by omega)
    have good := (parseLineSettings_eq_some d0 d1 fmt stop order sense mode gap m0 m1 region dflt permit access hold
      { divisor := natOfBytes [d0, d1], format := format, stopBits := stops, bitOrder := bits, sense := lineSense,
        mode := delim, gapThreshold := gap.toNat, maxLength := natOfBytes [m0, m1], region := ⟨region.toNat, by omega⟩,
        defaultAction := action, txPermitted := permitted, accessGap := access.toNat, hold := hold.toNat }).2
      ⟨inRange_self (Nat.zero_le _) h1, Format.ofCode_eq_some.1 e2, StopBits.ofCode_eq_some.1 e3,
        BitOrder.ofCode_eq_some.1 e4, Sense.ofCode_eq_some.1 e5, DelimMode.ofCode_eq_some.1 e6,
        inRange_self h8 (by have := gap.isLt; omega), inRange_self (Nat.pos_of_ne_zero h9) h10, quadOfByte_eq_some.1 e9,
        Decision.ofCode_eq_some.1 e7, boolOfCode_eq_some.1 e8, rfl, inRange_self (Nat.pos_of_ne_zero h14) h15⟩
    rw [isNone] at good
    cases good
  · intro outside
    by_contra isSome
    obtain ⟨c, h⟩ := Option.ne_none_iff_exists'.1 isSome
    obtain ⟨divisor, rfl, rfl, rfl, rfl, rfl, gap, most, rfl, rfl, rfl, -, hold⟩ :=
      (parseLineSettings_eq_some _ _ _ _ _ _ _ _ _ _ _ _ _ _ _ c).1 h
    have f1 : c.format.code.toNat ≤ 3 := by cases c.format <;> decide
    have f2 : c.stopBits.code.toNat ≠ 0 ∧ c.stopBits.code.toNat ≤ 2 := by cases c.stopBits <;> decide
    have f3 : c.bitOrder.code.toNat ≤ 1 := by cases c.bitOrder <;> decide
    have f4 : c.sense.code.toNat ≤ 1 := by cases c.sense <;> decide
    have f5 : c.mode.code.toNat ≤ 2 := by cases c.mode <;> decide
    have f6 : c.defaultAction.code.toNat ≤ 1 := by cases c.defaultAction <;> decide
    have f7 : (byteOfBits [c.txPermitted]).toNat ≤ 1 := by cases c.txPermitted <;> decide
    have f8 : (quadByte c.region).toNat ≤ 3 := by generalize c.region = r; revert r; decide
    have r1 := inRange_iff.1 divisor
    have r2 := inRange_iff.1 gap
    have r3 := inRange_iff.1 most
    have r4 := inRange_iff.1 hold
    omega

theorem byte_toNat_of_le {n : Nat} (h : n ≤ 255) : (BitVec.ofNat 8 n).toNat = n := by
  rw [BitVec.toNat_ofNat]; omega

/-- Settings in range read back as they are. -/
theorem parseLineSettings_bytes {c : LineSettings} (h : c.InRange) : parseLineSettings (lineSettingsBytes c) = some c := by
  obtain ⟨divisor, gap2, gap, one, most, access, hold1, hold⟩ := h
  have d := natOfBytes_bytesOfNat_two (n := c.divisor) (by omega)
  have m := natOfBytes_bytesOfNat_two (n := c.maxLength) (by omega)
  rw [bytesOfNat_two] at d m
  exact (parseLineSettings_eq_some _ _ _ _ _ _ _ _ _ _ _ _ _ _ _ c).2
    ⟨by rw [d]; exact inRange_self (Nat.zero_le _) divisor, rfl, rfl, rfl, rfl, rfl,
      by rw [byte_toNat_of_le gap]; exact inRange_self gap2 gap, by rw [m]; exact inRange_self one most, rfl, rfl, rfl,
      byte_toNat_of_le access, by rw [byte_toNat_of_le (by omega)]; exact inRange_self hold1 hold⟩

/-! ### Filter entries (R134) -/

/-- An entry is read field by field. -/
theorem parseFilterEntry_eq_some (b0 lines fv fm sv sm codes flag n0 n1 x0 x1 s0 s1 : Byte) (e : FilterEntry) :
    parseFilterEntry [b0, lines, fv, fm, sv, sm, codes, flag, n0, n1, x0, x1, s0, s1] = some e ↔
      lines.toNat = e.lines.toNat ∧ twoBits codes 0 = e.address.code ∧ twoBits codes 2 = e.errorClass.code ∧
      twoBits codes 4 = e.origin.code ∧ twoBits codes 6 = e.action.code ∧ flag = byteOfFlagOpt e.flag ∧
      inRange 1 65535 (natOfBytes [n0, n1]) = some e.lenMin ∧
      inRange e.lenMin 65535 (natOfBytes [x0, x1]) = some e.lenMax ∧
      inRange 0 256 (natOfBytes [s0, s1]) = some e.slice ∧ e.enabled = b0.getLsbD 0 ∧
      e.first = { value := fv, mask := fm } ∧
      e.second = if b0.getLsbD 1 then some { value := sv, mask := sm } else none := by
  simp only [← quadSetOfByte_eq_some, ← AddressTest.ofCode_eq_some, ← ErrorClass.ofCode_eq_some,
    ← Origin.ofCode_eq_some, ← FilterAction.ofCode_eq_some, ← flagOptOfByte_eq_some]
  constructor
  · intro h
    simp only [parseFilterEntry, Option.bind_eq_bind, Option.bind_eq_some_iff, Option.pure_def, Option.some.injEq] at h
    obtain ⟨_, h1, _, h2, _, h3, _, h4, _, h5, _, h6, _, h7, _, h8, _, h9, rfl⟩ := h
    exact ⟨h1, h2, h3, h4, h5, h6, h7, h8, h9, rfl, rfl, rfl⟩
  · rintro ⟨h1, h2, h3, h4, h5, h6, h7, h8, h9, enabled, first, second⟩
    obtain ⟨_, _, _, _, _, _, _, _, _, _, _, _⟩ := e
    subst enabled first second
    simp only [parseFilterEntry, h1, h2, h3, h4, h5, h6, h7, h8, h9, Option.bind_eq_bind, Option.bind_some]
    rfl

theorem parseFilterEntry_fields (b0 lines fv fm sv sm codes flag n0 n1 x0 x1 s0 s1 : Byte) (e : FilterEntry)
    (h : parseFilterEntry [b0, lines, fv, fm, sv, sm, codes, flag, n0, n1, x0, x1, s0, s1] = some e) :
    e.enabled = b0.getLsbD 0 ∧ e.lines.toNat = lines.toNat ∧ e.first = { value := fv, mask := fm } ∧
    e.second = (if b0.getLsbD 1 then some { value := sv, mask := sm } else none) ∧
    codes.toNat % 4 = (match e.address with | .any => 0 | .startOnly => 1 | .notStart => 2) ∧
    codes.toNat / 4 % 4 = (match e.errorClass with | .any => 0 | .clean => 1 | .errored => 2) ∧
    codes.toNat / 16 % 4 = (match e.origin with | .any => 0 | .ownOnly => 1 | .foreignOnly => 2) ∧
    codes.toNat / 64 = (match e.action with | .record => 0 | .drop => 1 | .count => 2) ∧
    flag.toNat = (match e.flag with | none => 255 | some f => f.val) ∧
    e.lenMin = natOfBytes [n0, n1] ∧ e.lenMax = natOfBytes [x0, x1] ∧ e.slice = natOfBytes [s0, s1] := by
  obtain ⟨lines, address, error, origin, action, rfl, least, most, slice, enabled, first, second⟩ :=
    (parseFilterEntry_eq_some _ _ _ _ _ _ _ _ _ _ _ _ _ _ e).1 h
  simp only [twoBits] at address error origin action
  refine ⟨enabled, lines.symm, first, second, ?_, ?_, ?_, ?_, ?_, (inRange_iff.1 least).1.symm, (inRange_iff.1 most).1.symm,
    (inRange_iff.1 slice).1.symm⟩
  · rw [pow_zero, Nat.div_one] at address
    rw [address]; cases e.address <;> rfl
  · refine Eq.trans error ?_; cases e.errorClass <;> rfl
  · refine Eq.trans origin ?_; cases e.origin <;> rfl
  · have top := codes.isLt
    rw [show codes.toNat / 64 = codes.toNat / 2 ^ 6 % 4 by omega, action]; cases e.action <;> rfl
  · cases e.flag with
    | none => rfl
    | some f => exact byte_toNat_of_le (by have := f.isLt; omega)

theorem AddressTest.code_le (x : AddressTest) : x.code ≤ 2 := by cases x <;> decide
theorem ErrorClass.code_le (x : ErrorClass) : x.code ≤ 2 := by cases x <;> decide
theorem Origin.code_le (x : Origin) : x.code ≤ 2 := by cases x <;> decide
theorem FilterAction.code_le (x : FilterAction) : x.code ≤ 2 := by cases x <;> decide

/-- The four two-bit codes of byte 6. -/
theorem twoBits_codes {a b c d : Nat} (ha : a ≤ 2) (hb : b ≤ 2) (hc : c ≤ 2) (hd : d ≤ 2) :
    twoBits (BitVec.ofNat 8 (a + 4 * b + 16 * c + 64 * d)) 0 = a ∧
      twoBits (BitVec.ofNat 8 (a + 4 * b + 16 * c + 64 * d)) 2 = b ∧
      twoBits (BitVec.ofNat 8 (a + 4 * b + 16 * c + 64 * d)) 4 = c ∧
      twoBits (BitVec.ofNat 8 (a + 4 * b + 16 * c + 64 * d)) 6 = d := by
  have small : a + 4 * b + 16 * c + 64 * d ≤ 255 := by omega
  simp only [twoBits, byte_toNat_of_le small]
  refine ⟨?_, ?_, ?_, ?_⟩ <;> norm_num <;> omega

/-- An entry that FILTER_WRITE can write reads back as it is. -/
theorem parseFilterEntry_bytes {e : FilterEntry} (one : 1 ≤ e.lenMin) (least : e.lenMin ≤ e.lenMax)
    (most : e.lenMax ≤ 65535) (slice : e.slice ≤ 256) : parseFilterEntry (filterEntryBytes e) = some e := by
  have n := natOfBytes_bytesOfNat_two (n := e.lenMin) (by omega)
  have x := natOfBytes_bytesOfNat_two (n := e.lenMax) (by omega)
  have z := natOfBytes_bytesOfNat_two (n := e.slice) (by omega)
  rw [bytesOfNat_two] at n x z
  obtain ⟨address, error, origin, action⟩ :=
    twoBits_codes e.address.code_le e.errorClass.code_le e.origin.code_le e.action.code_le
  have lines : (BitVec.ofNat 8 e.lines.toNat).toNat = e.lines.toNat :=
    byte_toNat_of_le (by have : e.lines.toNat < 16 := e.lines.isLt; omega)
  refine (parseFilterEntry_eq_some _ _ _ _ _ _ _ _ _ _ _ _ _ _ e).2
    ⟨lines, address, error, origin, action, rfl, by rw [n]; exact inRange_self one (by omega),
      by rw [x]; exact inRange_self least most, by rw [z]; exact inRange_self (Nat.zero_le _) slice, ?_, rfl, ?_⟩
  · rw [byteOfBits_getLsbD (by simp)]; rfl
  · rw [byteOfBits_getLsbD (by simp)]
    cases e.second <;> rfl

/-! ### Step records (R135) -/

/-- The ELSE target a step reads: none without a guard. -/
def elseOf (guard : Option UnitId) (els : Byte) : Option (Option ExitTarget) :=
  match guard with
  | none => some none
  | some _ => (ExitTarget.ofCode (els.toNat % 128)).map some

theorem elseOf_eq_some {guard : Option UnitId} {els : Byte} {x : Option ExitTarget} :
    elseOf guard els = some x ↔
      (guard = none → x = none) ∧ (guard ≠ none → ∃ t, x = some t ∧ els.toNat % 128 = t.code) := by
  cases guard with
  | none => simp [elseOf, eq_comm]
  | some u =>
    simp only [elseOf, Option.map_eq_some_iff, ExitTarget.ofCode_eq_some, reduceCtorEq, false_implies, true_and,
      ne_eq, not_false_iff, true_implies]
    exact ⟨fun ⟨t, code, e⟩ => ⟨t, e.symm, code⟩, fun ⟨t, e, code⟩ => ⟨t, code, e.symm⟩⟩

theorem parseStep_eq (mask opts n0 n1 guard exit els action operand z0 z1 z2 : Byte) :
    parseStep [mask, opts, n0, n1, guard, exit, els, action, operand, z0, z1, z2] =
      (ActionTiming.ofCode (twoBits opts 2)).bind fun timing => (guardOfByte guard).bind fun g =>
        (ExitTarget.ofCode (exit.toNat % 128)).bind fun target => (elseOf g els).bind fun other =>
          (StepAction.ofCodes action operand).bind fun act =>
            some { mask := mask, sense := if opts.getLsbD 0 then .all else .any, occurrences := natOfBytes [n0, n1],
                   guard := g, matchKind := if exit.getLsbD 7 then .call else .go, matchTarget := target,
                   elseTarget := other, action := act, timing := timing, consume := opts.getLsbD 1 } := by
  refine congrArg (Option.bind _) (funext fun timing => congrArg (Option.bind _) (funext fun g =>
    congrArg (Option.bind _) (funext fun target => ?_)))
  cases g <;> rfl

/-- A step record is read field by field. -/
theorem parseStep_eq_some (mask opts n0 n1 guard exit els action operand z0 z1 z2 : Byte) (st : StepRecord) :
    parseStep [mask, opts, n0, n1, guard, exit, els, action, operand, z0, z1, z2] = some st ↔
      twoBits opts 2 = st.timing.code ∧ guard = byteOfGuard st.guard ∧ exit.toNat % 128 = st.matchTarget.code ∧
      elseOf st.guard els = some st.elseTarget ∧ StepAction.ofCodes action operand = some st.action ∧
      st.mask = mask ∧ st.sense = (if opts.getLsbD 0 then .all else .any) ∧ st.occurrences = natOfBytes [n0, n1] ∧
      st.matchKind = (if exit.getLsbD 7 then .call else .go) ∧ st.consume = opts.getLsbD 1 := by
  simp only [← ActionTiming.ofCode_eq_some, ← guardOfByte_eq_some, ← ExitTarget.ofCode_eq_some]
  constructor
  · intro h
    simp only [parseStep_eq, Option.bind_eq_some_iff, Option.some.injEq] at h
    obtain ⟨_, h1, _, h2, _, h3, _, h4, _, h5, rfl⟩ := h
    exact ⟨h1, h2, h3, h4, h5, rfl, rfl, rfl, rfl, rfl⟩
  · rintro ⟨h1, h2, h3, h4, h5, h6, h7, h8, h9, h10⟩
    obtain ⟨_, _, _, _, _, _, _, _, _, _⟩ := st
    subst h6 h7 h8 h9 h10
    simp only [parseStep_eq, h1, h2, h3, h4, h5, Option.bind_some]

/-- An action byte and its operand name an action. -/
def StepAction.namedBy (action operand : Byte) : StepAction → Prop
  | .none => action = 0
  | .startTimer u => action = 1 ∧ operand.toNat = u.val
  | .stopTimer u => action = 2 ∧ operand.toNat = u.val
  | .captureTimer u => action = 3 ∧ operand.toNat = u.val
  | .setFlag f => action = 4 ∧ operand.toNat = f.val
  | .clearFlag f => action = 5 ∧ operand.toNat = f.val
  | .mark v => action = 6 ∧ operand = v
  | .pulse => action = 7
  | .send c => action = 8 ∧ operand.toNat = c.val

theorem StepAction.namedBy_of_ofCodes {action operand : Byte} {a : StepAction}
    (h : StepAction.ofCodes action operand = some a) : a.namedBy action operand := by
  have quad : ∀ {u : Fin 4}, quadOfByte operand = some u → operand.toNat = u.val := fun {u} e => by
    rw [quadOfByte_eq_some.1 e]; exact byte_toNat_of_le (by omega)
  have flag : ∀ {f : FlagId}, flagOfByte operand = some f → operand.toNat = f.val := fun {f} e => by
    rw [flagOfByte_eq_some.1 e]; exact byte_toNat_of_le (by have := f.isLt; omega)
  unfold StepAction.ofCodes at h
  split_ifs at h with h0 h1 h2 h3 h4 h5 h6 h7 h8
  · cases h; exact h0
  · obtain ⟨u, e, rfl⟩ := Option.map_eq_some_iff.1 h; exact ⟨h1, quad e⟩
  · obtain ⟨u, e, rfl⟩ := Option.map_eq_some_iff.1 h; exact ⟨h2, quad e⟩
  · obtain ⟨u, e, rfl⟩ := Option.map_eq_some_iff.1 h; exact ⟨h3, quad e⟩
  · obtain ⟨f, e, rfl⟩ := Option.map_eq_some_iff.1 h; exact ⟨h4, flag e⟩
  · obtain ⟨f, e, rfl⟩ := Option.map_eq_some_iff.1 h; exact ⟨h5, flag e⟩
  · cases h; exact ⟨h6, rfl⟩
  · cases h; exact h7
  · obtain ⟨c, e, rfl⟩ := Option.map_eq_some_iff.1 h; exact ⟨h8, flag e⟩

/-- An action reads back from its codes. -/
theorem StepAction.ofCodes_codes (a : StepAction) : StepAction.ofCodes a.codes.1 a.codes.2 = some a := by
  cases a with
  | none | pulse | mark => rfl
  | startTimer u | stopTimer u | captureTimer u => revert u; decide
  | setFlag f | clearFlag f | send f => revert f; decide

theorem parseStep_fields (mask opts n0 n1 guard exit els action operand z0 z1 z2 : Byte) (st : StepRecord)
    (h : parseStep [mask, opts, n0, n1, guard, exit, els, action, operand, z0, z1, z2] = some st) :
    st.mask = mask ∧ (st.sense = .all ↔ opts.getLsbD 0 = true) ∧ st.consume = opts.getLsbD 1 ∧
    opts.toNat / 4 % 4 = (match st.timing with | .each => 0 | .exit => 1 | .onElse => 2) ∧
    st.occurrences = natOfBytes [n0, n1] ∧ guard.toNat = (match st.guard with | none => 255 | some u => u.val) ∧
    (st.matchKind = .call ↔ exit.getLsbD 7 = true) ∧
    exit.toNat % 128 = (match st.matchTarget with | .step j => j.val | .fire => 0x40 | .ret => 0x41) ∧
    (st.guard = none → st.elseTarget = none) ∧
    (st.guard ≠ none → ∃ x, st.elseTarget = some x ∧
      els.toNat % 128 = (match x with | .step j => j.val | .fire => 0x40 | .ret => 0x41)) ∧
    st.action.namedBy action operand := by
  obtain ⟨timing, rfl, target, other, act, mask, sense, occurrences, kind, consume⟩ :=
    (parseStep_eq_some _ _ _ _ _ _ _ _ _ _ _ _ st).1 h
  obtain ⟨without, guarded⟩ := elseOf_eq_some.1 other
  have code : ∀ t : ExitTarget, t.code = (match t with | .step j => j.val | .fire => 0x40 | .ret => 0x41) := fun t => by
    cases t <;> rfl
  refine ⟨mask, ?_, consume, ?_, occurrences, ?_, ?_, target.trans (code _), without, fun some => ?_,
    StepAction.namedBy_of_ofCodes act⟩
  · rw [sense]; cases opts.getLsbD 0 <;> simp
  · simp only [twoBits] at timing
    refine Eq.trans timing ?_; cases st.timing <;> rfl
  · cases st.guard with
    | none => rfl
    | some u => exact byte_toNat_of_le (by omega)
  · rw [kind]; cases exit.getLsbD 7 <;> simp
  · obtain ⟨t, e, coded⟩ := guarded some
    exact ⟨t, e, coded.trans (code t)⟩

theorem ExitTarget.code_lt (t : ExitTarget) : t.code < 128 := by
  cases t with
  | step i => have := i.isLt; simp only [ExitTarget.code]; omega
  | fire | ret => decide

/-- The two fields of the option byte and of the exit byte. -/
theorem stepOptions_bits (all consume : Bool) (t : ActionTiming) (b : Byte)
    (e : b = BitVec.ofNat 8 ((if all then 1 else 0) + (if consume then 2 else 0) + 4 * t.code)) :
    b.getLsbD 0 = all ∧ b.getLsbD 1 = consume ∧ twoBits b 2 = t.code := by
  subst e
  cases all <;> cases consume <;> cases t <;> decide

theorem exitByte_fields (t : ExitTarget) (call : Bool) (b : Byte)
    (e : b = BitVec.ofNat 8 (t.code + (if call then 128 else 0))) : b.toNat % 128 = t.code ∧ b.getLsbD 7 = call := by
  subst e
  have small := t.code_lt
  generalize t.code = n at small
  have value : (BitVec.ofNat 8 (n + if call then 128 else 0)).toNat = n + if call then 128 else 0 :=
    byte_toNat_of_le (by split_ifs <;> omega)
  rw [BitVec.getLsbD, value, Nat.testBit_eq_decide_div_mod_eq]
  cases call
  · simp only [Bool.false_eq_true, if_false, decide_eq_false_iff_not]
    omega
  · simp only [if_true, decide_eq_true_eq]
    omega

/-- A step record that SEQ_LOAD can load reads back as it is. -/
theorem parseStep_bytes {st : StepRecord} (most : st.occurrences ≤ 65535)
    (guarded : st.elseTarget.isSome ↔ st.guard.isSome) : parseStep (stepBytes st) = some st := by
  have n := natOfBytes_bytesOfNat_two (n := st.occurrences) (by omega)
  rw [bytesOfNat_two] at n
  obtain ⟨sense, consume, timing⟩ := stepOptions_bits (decide (st.sense = .all)) st.consume st.timing _ rfl
  obtain ⟨target, kind⟩ := exitByte_fields st.matchTarget (decide (st.matchKind = .call)) _ rfl
  simp only [decide_eq_true_eq] at sense consume timing target kind
  refine (parseStep_eq_some _ _ _ _ _ _ _ _ _ _ _ _ st).2
    ⟨timing, ?_, target, ?_, StepAction.ofCodes_codes st.action, rfl, ?_, n.symm, ?_, consume.symm⟩
  · cases st.guard <;> rfl
  · refine elseOf_eq_some.2 ⟨fun none => ?_, fun some => ?_⟩
    · rw [none] at guarded
      exact Option.not_isSome_iff_eq_none.1 fun h => absurd (guarded.1 h) (by simp)
    · obtain ⟨t, e⟩ := Option.isSome_iff_exists.1 (guarded.2 (Option.isSome_iff_ne_none.2 some))
      refine ⟨t, e, ?_⟩
      rw [e]
      have small := t.code_lt
      show (BitVec.ofNat 8 t.code).toNat % 128 = t.code
      rw [byte_toNat_of_le (by omega)]
      omega
  · rw [sense]; cases st.sense <;> rfl
  · rw [kind]; cases st.matchKind <;> rfl

/-- Settles O14. -/
theorem payloadsReadBack : Obligations.PayloadsReadBack := by
  refine ⟨?_, parseFilterEntry_fields, parseStep_fields, fun c => parseLineSettings_bytes,
    fun e => parseFilterEntry_bytes, fun st => parseStep_bytes⟩
  rintro d0 d1 fmt stop order sense mode gap m0 m1 region dflt permit access hold bytes rfl
  exact ⟨parseLineSettings_eq_none _ _ _ _ _ _ _ _ _ _ _ _ _ _ _, fun c =>
    parseLineSettings_fields _ _ _ _ _ _ _ _ _ _ _ _ _ _ _⟩

end Sys2Proof.Machine

/-! PROOFS. The samples of a line (R3, R5, R6, R11 to R14): the idle measure and start bits. -/

namespace Sys2Proof.Machine

/-! ### What a sample of a line does -/

section
variable {s : State} {i : LineId} {pin : PinLevel} {l : Level} {r : Receiver} {o : RxOut} {named : RxOut → Bool}

theorem takeSample_of (h : sampled s i l = (r, o)) :
    takeSample s i l = afterSample (s.setRx i r) i (s.line i).rx.stopPending r o := by
  unfold takeSample
  rw [h]

/-- A sample that brings nothing about moves the receiver alone. -/
theorem exec_lineSample_of_nothing (level : lineLevel s i pin = l) (h : sampled s i l = (r, .nothing)) :
    exec (.lineSample i pin) s = .next (s.setRx i r) :=
  congrArg Host.Outcome.next (by rw [level, takeSample_of h]; rfl)

/-- A row named after a sample's outcome is that sample. -/
theorem sampleIf_of (h : sampled s i l = (r, o)) (names : named o = true) :
    sampleIf s i l named = afterSample (s.setRx i r) i (s.line i).rx.stopPending r o := by
  have own : named (sampled s i l).2 = true := by rw [h]; exact names
  rw [sampleIf, if_pos own, takeSample_of h]

theorem exec_lineSample_eq_sampleIf (level : lineLevel s i pin = l) (h : sampled s i l = (r, o))
    (names : named o = true) :
    exec (.lineSample i pin) s = .next (sampleIf s i l named) := by
  refine congrArg Host.Outcome.next ?_
  rw [level, takeSample_of h, sampleIf_of h names]

end

section
variable {s : State} {i : LineId}

theorem sampled_of_off (h : (s.line i).rx.state = .off) (l : Level) : sampled s i l = ((s.line i).rx, .nothing) :=
  Receiver.sample_of_off h l

theorem sampled_of_settle (h : (s.line i).rx.state = .settle) (l : Level) :
    sampled s i l = (s.line i).rx.sampleSettle l := Receiver.sample_of_settle h l

theorem sampled_of_hunt (h : (s.line i).rx.state = .hunt) (l : Level) :
    sampled s i l = (s.line i).rx.sampleHunt (s.rxContext i) l := Receiver.sample_of_hunt h l

theorem sampled_of_char (h : (s.line i).rx.state = .char) (l : Level) :
    sampled s i l = (s.line i).rx.sampleChar (s.line i).cfg l := Receiver.sample_of_char h l

theorem sampled_of_breakHold (h : (s.line i).rx.state = .breakHold) (l : Level) :
    sampled s i l = (s.line i).rx.sampleBreak l := Receiver.sample_of_breakHold h l

theorem sampled_settleEnd (h : (s.line i).rx.state = .settle) (last : (s.line i).rx.markRun = 191) :
    sampled s i .mark = ((s.line i).rx.settled, .settled) := by
  rw [sampled_of_settle h, Receiver.sampleSettle_last last.ge]

theorem sampled_fall (h : (s.line i).rx.state = .hunt) (free : (s.line i).rx.startPending = false)
    (seen : (s.line i).rx.awaitingMark = false) (mark : (s.line i).rx.level = .mark) :
    sampled s i .space =
      ({ (s.line i).rx with level := .space, startPending := true, frameSamples := 1 }, .fall) := by
  rw [sampled_of_hunt h, Receiver.sampleHunt_fall free ⟨seen, mark⟩]

theorem sampled_few (h : (s.line i).rx.state = .hunt) (free : (s.line i).rx.startPending = false)
    (few : (s.line i).rx.idleSamples < 15) :
    sampled s i .mark =
      ({ (s.line i).rx with level := .mark, awaitingMark := false, idleSamples := (s.line i).rx.idleSamples + 1 },
        .nothing) := by
  rw [sampled_of_hunt h, Receiver.sampleHunt_mark free]
  exact Receiver.countMark_few (r := { (s.line i).rx with level := .mark, awaitingMark := false }) few

/-- The mark sample at which the idle measure rises. -/
theorem sampled_rise (h : (s.line i).rx.state = .hunt) (free : (s.line i).rx.startPending = false)
    (sixteenth : (s.line i).rx.idleSamples = 15) (below : (s.line i).rx.idle < 255) :
    sampled s i .mark =
      ({ (s.line i).rx with level := .mark, awaitingMark := false, idleSamples := 0, idle := (s.line i).rx.idle + 1 },
        .idleRose ((s.line i).rx.idle + 1)) := by
  rw [sampled_of_hunt h, Receiver.sampleHunt_mark free]
  exact Receiver.countMark_rise (r := { (s.line i).rx with level := .mark, awaitingMark := false }) sixteenth.ge below

theorem sampled_full (h : (s.line i).rx.state = .hunt) (free : (s.line i).rx.startPending = false)
    (sixteenth : (s.line i).rx.idleSamples = 15) (full : (s.line i).rx.idle = 255) :
    sampled s i .mark =
      ({ (s.line i).rx with level := .mark, awaitingMark := false, idleSamples := 0 }, .nothing) := by
  rw [sampled_of_hunt h, Receiver.sampleHunt_mark free]
  exact Receiver.countMark_full (r := { (s.line i).rx with level := .mark, awaitingMark := false }) sixteenth.ge full.ge

theorem sampled_breakEnd (h : (s.line i).rx.state = .breakHold) (last : (s.line i).rx.markRun = 7) :
    sampled s i .mark = ((s.line i).rx.enterHunt .mark, .breakEnded ((s.line i).rx.breakInfo false)) := by
  rw [sampled_of_breakHold h, Receiver.sampleBreak_end last.ge]

/-- Sample 9 of a start bit decides it. -/
theorem sampled_start (h : (s.line i).rx.state = .hunt) (pending : (s.line i).rx.startPending = true)
    (ninth : (s.line i).rx.frameSamples = 8) (l : Level) :
    sampled s i l =
      match majority ⟨(s.line i).rx.vote7, (s.line i).rx.vote8, l⟩ with
      | .space => (((s.line i).rx.noted 9 9 l).validate (s.rxContext i)
          (!unanimous ⟨(s.line i).rx.vote7, (s.line i).rx.vote8, l⟩), .validated)
      | .mark => ({ (s.line i).rx.noted 9 9 l with startPending := false, frameSamples := 0 }, .falseStart) := by
  have notFew : ¬(s.line i).rx.frameSamples + 1 < 9 := by omega
  rw [sampled_of_hunt h, Receiver.sampleHunt_of_pending pending]
  cases vote : majority ⟨(s.line i).rx.vote7, (s.line i).rx.vote8, l⟩ with
  | space => rw [Receiver.samplePending_space notFew vote, ninth]
  | mark => rw [Receiver.samplePending_mark notFew vote, ninth]

theorem slotOf_place (n : Nat) : slotOf (n + 1) = n / 16 ∧ placeOf (n + 1) = n % 16 + 1 := ⟨rfl, rfl⟩

/-- The last sample of the last stop bit ends the character. -/
theorem sampled_charEnd (h : (s.line i).rx.state = .char)
    (last : (s.line i).rx.frameSamples = 16 * lastStopSlot (s.line i).cfg + 15) (l : Level) :
    sampled s i l = ((s.line i).rx.enterHunt l, .character ((s.line i).rx.builtCharacter (s.line i).cfg)) := by
  obtain ⟨slot, place⟩ := slotOf_place (s.line i).rx.frameSamples
  rw [sampled_of_char h, Receiver.sampleChar_end ⟨by rw [place, last]; omega, by rw [slot, last]; omega⟩]

/-- Sample 9 of the first stop bit with every slot space is a break. -/
theorem sampled_break (h : (s.line i).rx.state = .char)
    (ninth : (s.line i).rx.frameSamples = 16 * firstStopSlot (s.line i).cfg + 8)
    (spaces : ∀ x ∈ (s.line i).rx.slots, x = .space) {l : Level}
    (vote : majority ⟨(s.line i).rx.vote7, (s.line i).rx.vote8, l⟩ = .space) :
    sampled s i l = ((s.line i).rx.inBreak l, .breakFound) := by
  obtain ⟨slot, place⟩ := slotOf_place (s.line i).rx.frameSamples
  have first : slotOf ((s.line i).rx.frameSamples + 1) = firstStopSlot (s.line i).cfg := by rw [slot, ninth]; omega
  have later : 1 ≤ firstStopSlot (s.line i).cfg := by unfold firstStopSlot; split_ifs <;> omega
  have all : allSpace ((s.line i).rx.decided l).slots = true := by
    simp only [allSpace, Receiver.decided, vote, List.all_append, Bool.and_eq_true, List.all_eq_true, beq_iff_eq]
    exact ⟨spaces, by simp⟩
  rw [sampled_of_char h, Receiver.sampleChar_break ⟨by rw [place, ninth]; omega, by rw [first]; exact later, first.le⟩
    first all]

end

/-! ### The idle measure (R5, R12, R13) -/

theorem gapCompletes_eq_false {l : Line} {n : Nat}
    (h : l.msg = none ∨ l.cfg.mode = .address ∨ n ≠ l.cfg.gapThreshold) : gapCompletes l n = false := by
  rcases h with none | address | other
  · simp [gapCompletes, none]
  · simp [gapCompletes, address]
  · simp [gapCompletes, other]

theorem gapCompletes_eq_true {l : Line} {n : Nat} (some : l.msg ≠ none) (mode : l.cfg.mode ≠ .address)
    (meets : n = l.cfg.gapThreshold) : gapCompletes l n = true := by
  simp [gapCompletes, mode, meets, Option.isSome_iff_ne_none, some]

/-- Settles O17. -/
theorem samplesMoveTheIdleMeasure : Obligations.SamplesMoveTheIdleMeasure := by
  refine ⟨fun i s state last => congrArg Host.Outcome.next (sampleIf_of (sampled_settleEnd state last) rfl),
    fun i pin s => ⟨fun state => ?_, fun state level => ?_, fun state level few => ?_, fun state free level few => ?_,
      fun state free level sixteenth below quiet => ?_, fun state free level sixteenth full => ?_,
      fun state free level noFall => ?_, fun state level => ?_, fun state level few => ?_⟩,
    fun i pin s => ⟨fun level => ⟨fun state last => ?_, fun state last => ?_,
      fun state free sixteenth below meets mode some => ?_⟩, fun level state free seen mark => ?_,
      fun state pending ninth => ?_, fun state last => ?_, fun state ninth spaces vote => ?_⟩⟩
  · rw [exec_lineSample_of_nothing rfl (sampled_of_off state _), State.setRx_rx]
  · exact exec_lineSample_of_nothing level (sampled_of_settle state _)
  · exact exec_lineSample_of_nothing level ((sampled_of_settle state _).trans (Receiver.sampleSettle_mark few))
  · exact exec_lineSample_of_nothing level (sampled_few state free few)
  · refine congrArg Host.Outcome.next ((congrArg (takeSample s i) level).trans ?_)
    rw [takeSample_of (sampled_rise state free sixteenth below), afterSample, if_neg]
    rw [State.line_setRx_same]
    exact ne_true_of_eq_false (gapCompletes_eq_false quiet)
  · exact exec_lineSample_of_nothing level (sampled_full state free sixteenth full)
  · refine exec_lineSample_of_nothing level ((sampled_of_hunt state _).trans (Receiver.sampleHunt_space free ?_))
    rintro ⟨seen, mark⟩
    rcases noFall with h | h
    · exact absurd (seen.symm.trans h) (by simp)
    · exact absurd (mark.symm.trans h) (by simp)
  · exact exec_lineSample_of_nothing level (sampled_of_breakHold state _)
  · exact exec_lineSample_of_nothing level ((sampled_of_breakHold state _).trans (Receiver.sampleBreak_mark few))
  · exact exec_lineSample_eq_sampleIf level (sampled_settleEnd state last) rfl
  · exact exec_lineSample_eq_sampleIf level (sampled_breakEnd state last) rfl
  · exact exec_lineSample_eq_sampleIf level (sampled_rise state free sixteenth below)
      (gapCompletes_eq_true some mode meets)
  · exact exec_lineSample_eq_sampleIf level (sampled_fall state free seen mark) rfl
  · have decided := sampled_start state pending ninth (lineLevel s i pin)
    revert decided
    cases majority ⟨(s.line i).rx.vote7, (s.line i).rx.vote8, lineLevel s i pin⟩ with
    | space => exact fun h => exec_lineSample_eq_sampleIf rfl h rfl
    | mark => exact fun h => exec_lineSample_eq_sampleIf rfl h rfl
  · exact exec_lineSample_eq_sampleIf rfl (sampled_charEnd state last _) rfl
  · exact exec_lineSample_eq_sampleIf rfl (sampled_break state ninth spaces vote) rfl

end Sys2Proof.Machine

/-! PROOFS. Start bits and the collisions they can bring about (R6, R11, R14, R24, R154, R157 to R159). -/

namespace Sys2Proof.Machine

/-! ### A collision on a line (R24, R157, R158) -/

/-- The open message with COLL set (R24). -/
def Message.withColl (m : Message) : Message := { m with flags := { m.flags with coll := true } }

/-- The line once its unit has found a collision. -/
def Line.collided (l : Line) : Line :=
  { l with msg := l.msg.map Message.withColl, tx := { l.tx with collided := true, awaited := [] } }

theorem collisionReport_eq_setMsg (s : State) (i : LineId) :
    collisionReport s i = s.setMsg i ((s.line i).msg.map Message.withColl) := by
  unfold collisionReport
  cases h : (s.line i).msg with
  | none => exact (State.setMsg_msg s i).symm.trans (congrArg (s.setMsg i) h)
  | some m => rfl

theorem foundCollision_eq (s : State) (i : LineId) :
    foundCollision s i = releaseIfHolding (s.setLine i (s.line i).collided) i := by
  have reported : collisionReport (s.setTx i { (s.line i).tx with collided := true, awaited := [] }) i =
      s.setLine i (s.line i).collided := by
    rw [collisionReport_eq_setMsg]
    simp [State.setMsg, State.setTx, Line.collided]
  exact congrArg (releaseIfHolding · i) reported

theorem foundCollision_of_not_hold {s : State} {i : LineId} (h : (s.line i).tx.state ≠ .hold) :
    foundCollision s i = s.setLine i (s.line i).collided := by
  rw [foundCollision_eq, releaseIfHolding, if_neg]
  simpa [Line.collided] using h

theorem foundCollision_of_hold {s : State} {i : LineId} (h : (s.line i).tx.state = .hold) :
    foundCollision s i = (s.setLine i (s.line i).collided).endTx i .collision := by
  rw [foundCollision_eq, releaseIfHolding, if_pos]
  simpa [Line.collided] using h

theorem judgeHold_of_none {s : State} {i : LineId} (h : (s.line i).tx.awaited = []) :
    judgeHold s i = s.endTx i .ok := by
  rw [judgeHold, h]
  rfl

theorem judgeHold_of_some {s : State} {i : LineId} (h : (s.line i).tx.awaited ≠ []) :
    judgeHold s i = foundCollision s i := by
  rw [judgeHold, if_neg]
  simpa using h

/-! ### A fall in HUNT (R14, R154, R159) -/

section
variable {s : State} {i : LineId}

theorem fallSeen_of_preamble (h : (s.line i).tx.state = .preamble) :
    fallSeen s i = (s.setTx i { (s.line i).tx with state := .wait }).report i LineStats.deferral := by
  simp only [fallSeen, h]

theorem fallSeen_of_hold (h : (s.line i).tx.state = .hold) : fallSeen s i = judgeHold s i := by
  simp only [fallSeen, h]

theorem fallSeen_of_other (preamble : (s.line i).tx.state ≠ .preamble) (hold : (s.line i).tx.state ≠ .hold) :
    fallSeen s i = s := by
  unfold fallSeen
  dsimp only
  cases h : (s.line i).tx.state with
  | preamble => exact absurd h preamble
  | hold => exact absurd h hold
  | idle => rfl
  | wait => rfl
  | brk => rfl
  | data => rfl

end

/-- Settles O18. -/
theorem startBitsAreFoundAndDecided : Obligations.StartBitsAreFoundAndDecided := by
  refine ⟨fun i s t state free seen mark ht => ?_, fun i pin s l n state pending hn few hl => ?_,
    fun i pin s l v b state pending ninth hl hv hb => ⟨fun vote => ?_, fun vote => ?_⟩⟩
  · have fell : exec (.startBitFall i) s = .next (fallSeen t i) := by
      rw [ht]
      exact congrArg Host.Outcome.next (sampleIf_of (sampled_fall state free seen mark) rfl)
    have same : (t.line i).tx = (s.line i).tx := by rw [ht]; simp
    have line : t.line i = { t.line i with msg := (s.line i).msg, tx := (s.line i).tx } := by
      rw [ht]; simp
    rw [fell]
    refine ⟨fun preamble hold => ?_, fun preamble => ?_, fun hold none => ?_, fun hold some => ?_⟩
    · rw [fallSeen_of_other (by rwa [same]) (by rwa [same])]
    · rw [fallSeen_of_preamble (by rwa [same]), same, ht]
      rfl
    · rw [fallSeen_of_hold (by rwa [same]), judgeHold_of_none (by rwa [same])]
    · rw [fallSeen_of_hold (by rwa [same]), judgeHold_of_some (by rwa [same]),
        foundCollision_of_hold (by rwa [same]), line]
      rfl
  · subst hl hn
    refine exec_lineSample_of_nothing rfl ((sampled_of_hunt state _).trans ?_)
    rw [Receiver.sampleHunt_of_pending pending, Receiver.samplePending_few few]
    rfl
  · subst hl hv hb
    refine congrArg Host.Outcome.next ((sampleIf_of (o := .validated) ?_ rfl))
    have decided := sampled_start state pending ninth ((s.line i).cfg.sense.apply pin)
    rw [vote] at decided
    exact decided
  · subst hl hv hb
    refine congrArg Host.Outcome.next ((sampleIf_of (o := .falseStart) ?_ rfl))
    have decided := sampled_start state pending ninth ((s.line i).cfg.sense.apply pin)
    rw [vote] at decided
    exact decided

end Sys2Proof.Machine

/-! PROOFS. Characters and breaks delivered, and the echoes they are judged by (R7 to R12, R15, R24, R34, R157). -/

namespace Sys2Proof.Machine

/-! ### The slots of a character (R1, R4, R7, R8) -/

theorem majority_eq_mark_iff (v : Votes) : majority v = .mark ↔
    (v.s7 = .mark ∧ v.s8 = .mark) ∨ (v.s7 = .mark ∧ v.s9 = .mark) ∨ (v.s8 = .mark ∧ v.s9 = .mark) := by
  obtain ⟨a, b, c⟩ := v
  cases a <;> cases b <;> cases c <;> decide

theorem isMark_iff {l : Level} : isMark l = true ↔ l = .mark := by
  cases l <;> decide

theorem isMark_eq_beq : isMark = (· == Level.mark) := by
  funext l
  cases l <;> rfl

theorem markCount_eq_count (slots : List Level) : markCount slots = slots.count .mark := by
  rw [markCount, isMark_eq_beq]
  rfl

theorem byteOfLevels_bit_iff {ls : List Level} (short : ls.length ≤ 8) (k : Nat) :
    (byteOfLevels ls).getLsbD k = true ↔ ls[k]? = some .mark := by
  rw [byteOfLevels, byteOfBits_bit_iff (by simpa using short), List.getElem?_map]
  cases ls[k]? with
  | none => simp
  | some l => simpa using isMark_iff

theorem dataOfSlots_lsbFirst_bit {slots : List Level} (k : Fin 8) :
    (dataOfSlots .lsbFirst slots).getLsbD k.val = true ↔ slots[k.val]? = some .mark := by
  have bit := byteOfLevels_bit_iff (ls := slots.take 8) (by simp) k.val
  rwa [List.getElem?_take_of_lt k.isLt] at bit

theorem dataOfSlots_msbFirst_bit {slots : List Level} (h : 8 ≤ slots.length) (k : Fin 8) :
    (dataOfSlots .msbFirst slots).getLsbD k.val = true ↔ slots[7 - k.val]? = some .mark := by
  have length : (slots.take 8).length = 8 := by simpa using h
  have bit := byteOfLevels_bit_iff (ls := (slots.take 8).reverse) (by simp) k.val
  have place : 8 - 1 - k.val = 7 - k.val := by omega
  rwa [List.getElem?_reverse (by rw [length]; exact k.isLt), length, place,
    List.getElem?_take_of_lt (by omega)] at bit

theorem addressFlag_iff (f : Format) (slots : List Level) :
    addressFlag f slots = true ↔ f = .f8A ∧ slots[8]? = some .mark := by
  cases f with
  | f8A =>
    rw [addressFlag]
    cases slots[8]? with
    | none => simp
    | some l => simpa using isMark_iff
  | f8N => simp [addressFlag]
  | f8E => simp [addressFlag]
  | f8O => simp [addressFlag]

theorem parityFails_iff (f : Format) (slots : List Level) :
    parityFails f slots = true ↔
      (f = .f8E ∧ (slots.take 9).count .mark % 2 = 1) ∨ (f = .f8O ∧ (slots.take 9).count .mark % 2 = 0) := by
  rw [← markCount_eq_count]
  cases f <;> simp [parityFails]

theorem framingFails_iff (slots : List Level) : framingFails slots = true ↔ slots.getLast? = some .space :=
  beq_iff_eq

theorem slotNumbers (c : LineSettings) :
    firstStopSlot c = (match c.format with | .f8N => 9 | .f8E => 10 | .f8O => 10 | .f8A => 10) ∧
    lastStopSlot c = firstStopSlot c + (match c.stopBits with | .one => 0 | .two => 1) ∧
    charTime c = lastStopSlot c + 1 := by
  refine ⟨?_, ?_, rfl⟩
  · unfold firstStopSlot
    cases c.format <;> rfl
  · unfold lastStopSlot
    cases c.stopBits <;> rfl

/-! ### A character handed on (R10, R15, R138) -/

theorem TxUnit.judge_of_quiet {u : TxUnit} (h : u.judging = false) (f : Format) (ch : Character) :
    u.judge f ch = .notJudged := if_neg (ne_true_of_eq_false h)

theorem deliverCharacter_of_quiet {s : State} {i : LineId} (h : (s.line i).tx.judging = false) (ch : Character) :
    deliverCharacter s i ch = assembleCharacter s i ch := by
  simp only [deliverCharacter, TxUnit.judge_of_quiet h]

theorem afterHandover_of_running {s : State} {i : LineId} {stopping : Bool} (h : stopping = false) :
    afterHandover s i stopping = s := if_neg (ne_true_of_eq_false h)

theorem afterHandover_of_stopping {s : State} {i : LineId} {stopping : Bool} (h : stopping = true) :
    afterHandover s i stopping = enterOff s i := if_pos h

/-- Settles O19. -/
theorem characterIsDelivered : Obligations.CharacterIsDelivered := by
  refine ⟨fun i pin s t l ch state last hl hch ht => ?_, fun s i ch quiet => deliverCharacter_of_quiet quiet ch,
    fun g ch => rfl, fun i pin s l v slot place r decided state hl hslot hplace hv hr hd => ?_, majority_eq_mark_iff,
    slotNumbers, fun slots => ⟨fun long k => ⟨dataOfSlots_lsbFirst_bit k, dataOfSlots_msbFirst_bit long k⟩,
      fun f => addressFlag_iff f slots, fun f => parityFails_iff f slots, framingFails_iff slots⟩⟩
  · have handed : exec (.characterDelivered i pin) s = .next (afterHandover t i (s.line i).rx.stopPending) := by
      subst hl hch ht
      exact congrArg Host.Outcome.next (sampleIf_of (sampled_charEnd state last _) rfl)
    rw [handed]
    exact ⟨fun running => congrArg Host.Outcome.next (afterHandover_of_running running),
      fun stopping => congrArg Host.Outcome.next (afterHandover_of_stopping stopping)⟩
  · obtain ⟨slotEq, placeEq⟩ := slotOf_place (s.line i).rx.frameSamples
    rw [← hslot] at slotEq
    rw [← hplace] at placeEq
    refine ⟨fun noDecision noEnd => ?_, fun ninth above upTo more => ?_⟩
    · refine exec_lineSample_of_nothing hl.symm ((sampled_of_char state _).trans ?_)
      rw [Receiver.sampleChar_between, Receiver.notedChar, placeEq, hr]
      · rfl
      · rintro ⟨nine, above, upTo⟩
        omega
      · rintro ⟨sixteen, end_⟩
        omega
    · refine exec_lineSample_of_nothing hl.symm ((sampled_of_char state _).trans ?_)
      have built : (s.line i).rx.decided l = decided := by
        rw [Receiver.decided, Receiver.notedChar, placeEq, hd, hr, hv]
        rfl
      rw [Receiver.sampleChar_decide, built]
      · exact ⟨placeEq.trans ninth, slotEq ▸ above, slotEq ▸ upTo⟩
      · rintro ⟨last, spaces⟩
        rw [slotEq] at last
        obtain ⟨x, member, mark⟩ := more.resolve_left (not_not.2 last)
        rw [built, allSpace, List.all_eq_true] at spaces
        exact absurd (spaces x member) (by rw [mark]; decide)

/-! ### Echoes (R157) -/

theorem goodEcho_iff (f : Format) (e : AwaitedEcho) (ch : Character) :
    goodEcho f e ch = true ↔ ch.data = e.data ∧ ch.parity = false ∧ ch.framing = false ∧
      (f = .f8A → e.ninth = some (if ch.addr then .mark else .space)) := by
  rw [show (if ch.addr then Level.mark else .space) = levelOfBit ch.addr from rfl]
  simp only [goodEcho, Bool.and_eq_true, beq_iff_eq, Bool.not_eq_true', Bool.or_eq_true, bne_iff_ne, and_assoc,
    imp_iff_not_or, eq_comm (b := e.ninth), ne_eq]

theorem raceCollision_cases (s : State) (i : LineId) (deliver : State → State) :
    raceCollision s i deliver = deliver (foundCollision s.useFree i) ∨
      raceCollision s i deliver = foundCollision (deliver s.useFree) i := by
  unfold raceCollision
  split_ifs
  · exact .inl rfl
  · exact .inr rfl

section
variable {s : State} {i : LineId} {ch : Character}

theorem deliverCharacter_of_good {e : AwaitedEcho} {rest : List AwaitedEcho} (judging : (s.line i).tx.judging = true)
    (awaited : (s.line i).tx.awaited = e :: rest) (good : goodEcho (s.line i).cfg.format e ch = true) :
    deliverCharacter s i ch = assembleCharacter (s.setTx i { (s.line i).tx with awaited := rest }) i ch := by
  have verdict : (s.line i).tx.judge (s.line i).cfg.format ch = .good := by
    rw [TxUnit.judge, if_pos judging, awaited]
    exact if_pos good
  have tail : (s.line i).tx.awaited.tail = rest := by rw [awaited]; rfl
  simp only [deliverCharacter, verdict, tail]

theorem deliverCharacter_of_bad (judging : (s.line i).tx.judging = true)
    (bad : ∀ e rest, (s.line i).tx.awaited = e :: rest → goodEcho (s.line i).cfg.format e ch = false) :
    deliverCharacter s i ch = raceCollision s i (fun t => assembleCharacter t i ch) := by
  have verdict : (s.line i).tx.judge (s.line i).cfg.format ch = .collision := by
    rw [TxUnit.judge, if_pos judging]
    cases awaited : (s.line i).tx.awaited with
    | nil => rfl
    | cons e rest => exact if_neg (ne_true_of_eq_false (bad e rest awaited))
  simp only [deliverCharacter, verdict]

end

theorem TxUnit.judging_iff (u : TxUnit) :
    u.judging = true ↔ (u.state = .data ∨ u.state = .hold) ∧ u.collided = false ∧ u.cut = .none := by
  simp [TxUnit.judging, and_assoc]

/-- Settles O20. -/
theorem echoIsJudged : Obligations.EchoIsJudged := by
  refine ⟨fun i s ch judging => ⟨fun e rest awaited data parity framing ninth => ?_, fun bad => ?_⟩,
    TxUnit.judging_iff, fun i s c hc => ⟨fun h => ?_, fun h => ?_⟩⟩
  · exact deliverCharacter_of_good judging awaited ((goodEcho_iff ..).2 ⟨data, parity, framing, ninth⟩)
  · rw [deliverCharacter_of_bad judging]
    · exact raceCollision_cases s i _
    · intro e rest awaited
      rw [Bool.eq_false_iff, ne_eq, goodEcho_iff]
      rintro ⟨data, parity, framing, ninth⟩
      rcases bad with none | ⟨e', rest', awaited', bad⟩
      · rw [none] at awaited; cases awaited
      · rw [awaited'] at awaited
        obtain ⟨rfl, rfl⟩ := List.cons.inj awaited
        rcases bad with other | failed | failed | ⟨format, other⟩
        · exact other data
        · rw [parity] at failed; cases failed
        · rw [framing] at failed; cases failed
        · exact other (ninth format)
  · exact (foundCollision_of_not_hold h).trans hc.symm
  · exact (foundCollision_of_hold h).trans (congrArg (State.endTx · i .collision) hc.symm)

/-! ### Breaks (R9, R12, R15, R34) -/

theorem deliverBreak_of_judging {s : State} {i : LineId} (h : (s.line i).tx.judging = true) (b : BreakInfo) :
    deliverBreak s i b = raceCollision s i (fun t => assembleBreak t i b) := if_pos h

theorem assembleBreak_of_open {s : State} {i : LineId} {m : Message} (h : (s.line i).msg = some m) (b : BreakInfo) :
    assembleBreak s i b = (completeMessage s i .brk m).offer (s.line i).cfg.region (brkRecord i b) := by
  simp only [assembleBreak, completeOpen_line_same]
  rw [completeOpen_of_some h]

theorem assembleBreak_of_closed {s : State} {i : LineId} (h : (s.line i).msg = none) (b : BreakInfo) :
    assembleBreak s i b = s.offer (s.line i).cfg.region (brkRecord i b) := by
  simp only [assembleBreak, completeOpen_of_none h]

theorem Receiver.inBreak_eq {r : Receiver} {l : Level} (ninth : placeOf (r.frameSamples + 1) = 9)
    (vote : majority ⟨r.vote7, r.vote8, l⟩ = .space) :
    r.inBreak l = { r with
      state := .breakHold, level := l, markRun := 0, frameSamples := 0, slots := r.slots ++ [.space],
      noise := r.noise || !unanimous ⟨r.vote7, r.vote8, l⟩ } := by
  simp [Receiver.inBreak, Receiver.decided, Receiver.notedChar, Receiver.noted, ninth, vote]

/-- Settles O21. -/
theorem breaksAreDelivered : Obligations.BreaksAreDelivered := by
  refine ⟨fun i pin s t l v state ninth spaces hl hv vote ht => ?_, fun i s t state last ht => ?_, fun g => rfl,
    fun i s u b hu => ⟨?_, fun quiet => deliverBreak_of_quiet quiet b, fun judging => ?_⟩⟩
  · have recognised : exec (.breakRecognised i pin) s =
        .next (if (s.line i).rx.stopPending then enterOff (handBreak t i ((s.line i).rx.breakInfo true)) i else t) := by
      subst hl hv ht
      have place : placeOf ((s.line i).rx.frameSamples + 1) = 9 := by
        rw [(slotOf_place _).2, ninth]
        omega
      rw [← Receiver.inBreak_eq place vote]
      exact congrArg Host.Outcome.next (sampleIf_of (sampled_break state ninth spaces vote) rfl)
    rw [recognised]
    exact ⟨fun running => congrArg Host.Outcome.next (if_neg (ne_true_of_eq_false running)),
      fun stopping => congrArg Host.Outcome.next (if_pos stopping)⟩
  · subst ht
    exact congrArg Host.Outcome.next (sampleIf_of (sampled_breakEnd state last) rfl)
  · subst hu
    cases h : (s.line i).msg with
    | none => exact assembleBreak_of_closed h b
    | some m => exact assembleBreak_of_open h b
  · rw [deliverBreak_of_judging judging]
    exact raceCollision_cases s i _

end Sys2Proof.Machine

/-! PROOFS. Messages: how they complete, and how a character joins one (R21 to R33, R139, R140). -/

namespace Sys2Proof.Machine

/-! ### The report of a completion (R139, R140) -/

/-- The received counts of a size bucket. -/
def inBucket (b : Fin 7) (n : Nat) : Prop :=
  (b = 0 ∧ n = 1) ∨ (b = 1 ∧ 2 ≤ n ∧ n ≤ 3) ∨ (b = 2 ∧ 4 ≤ n ∧ n ≤ 7) ∨ (b = 3 ∧ 8 ≤ n ∧ n ≤ 15) ∨
    (b = 4 ∧ 16 ≤ n ∧ n ≤ 63) ∨ (b = 5 ∧ 64 ≤ n ∧ n ≤ 255) ∨ (b = 6 ∧ 256 ≤ n)

theorem sizeBucket_eq {b : Fin 7} {n : Nat} (h : inBucket b n) : sizeBucket n = b := by
  rcases h with ⟨rfl, h⟩ | ⟨rfl, h⟩ | ⟨rfl, h⟩ | ⟨rfl, h⟩ | ⟨rfl, h⟩ | ⟨rfl, h⟩ | ⟨rfl, h⟩ <;> grind [sizeBucket]

theorem LineStats.completion_eq (g : LineStats) (x : MsgOutcome) {n : Nat} (trunc : Bool) {b : Fin 7}
    (h : inBucket b n) : g.completion x n trunc = { g with
      messages := satInc 0xFFFFFFFF g.messages
      recorded := if x = .recorded then satInc 0xFFFFFFFF g.recorded else g.recorded
      filtered := if x = .filtered then satInc 0xFFFFFFFF g.filtered else g.filtered
      lost := if x = .lost then satInc 0xFFFFFFFF g.lost else g.lost
      truncated := if trunc then satInc 0xFFFFFFFF g.truncated else g.truncated
      buckets := g.buckets.set b (satInc 0xFFFFFFFF g.buckets[b]) } := by
  obtain rfl := sizeBucket_eq h
  cases x <;> rfl

/-! ### Completion (R26, R29 to R33) -/

theorem completed_of_drop {c : LineSettings} {i : LineId} {cause : EndCause} {m : Message} {s : State}
    {a : FilterAnswer} (ha : a = filterAnswer (m.props i) c.defaultAction s.filters.toList)
    (drop : a.decision = .drop) :
    completed c i cause m s =
      sendFlags ((s.countHits (m.props i)).report i fun g => g.completion .filtered m.received m.flags.trunc) i
        a.flags := by
  simp only [completed, offered, ← ha, drop]

theorem completed_of_record {c : LineSettings} {i : LineId} {cause : EndCause} {m : Message} {s h : State}
    {a : FilterAnswer} {rec : Rec} (ha : a = filterAnswer (m.props i) c.defaultAction s.filters.toList)
    (hh : h = s.countHits (m.props i)) (hrec : rec = msgRecord i cause m a.index a.slice)
    (record : a.decision = .record) :
    completed c i cause m s =
      sendFlags ((h.offer c.region rec).report i fun g =>
        g.completion (if h.offerRecorded c.region rec then .recorded else .lost) m.received m.flags.trunc) i
        a.flags := by
  simp only [completed, offered, ← ha, record, hh, hrec]

/-- Settles O22. -/
theorem completionIsWhole : Obligations.CompletionIsWhole := by
  refine ⟨fun i s m state free sixteenth meets small mode some => ?_,
    fun s i cause => ⟨fun none => completeOpen_of_none none cause, fun m some => completeOpen_of_some some cause⟩,
    fun i m => rfl, fun g x n trunc b bucket => g.completion_eq x trunc bucket,
    fun s i cause m a h o r x ha hh drop record hr => ?_⟩
  · have rose := sampled_rise state free sixteenth (by omega)
    rw [meets] at rose
    refine congrArg Host.Outcome.next ((sampleIf_of rose ?_).trans ?_)
    · exact gapCompletes_eq_true (by rw [some]; simp) mode rfl
    · rw [afterSample, if_pos, completeOpen_of_some]
      · simpa using some
      · exact gapCompletes_eq_true (by simp [some]) (by simpa using mode) (by simp)
  · have counted : h = s.countHits (m.props i) := hh
    have done : completed (s.line i).cfg i cause m s = sendFlags r i a.flags := by
      cases decision : a.decision with
      | drop =>
        obtain ⟨rfl, rfl⟩ := drop decision
        rw [completed_of_drop ha decision, hr, counted]
        rfl
      | record =>
        obtain ⟨rfl, rfl⟩ := record decision
        rw [completed_of_record ha counted rfl decision, hr, counted]
        rfl
    refine ⟨fun none => ?_, fun some => ?_, fun some place => ?_⟩
    · rw [completeMessage_eq, done, sendFlags_of_zero none]
    · rw [completeMessage_eq, done, sendFlags_of_ne some]
    · have queue : r.seq = s.seq := by
        cases decision : a.decision with
        | drop =>
          obtain ⟨rfl, rfl⟩ := drop decision
          rw [hr, counted]
          rfl
        | record =>
          obtain ⟨rfl, rfl⟩ := record decision
          rw [hr, counted]
          rfl
      rw [completeMessage_eq, done, sendFlags_of_ne some, State.joinQueue_of_place (by rwa [queue])]

/-! ### A character joins its message (R20 to R25) -/

theorem addressEnds_iff (c : LineSettings) (ch : Character) :
    addressEnds c ch = true ↔ c.mode ≠ .gap ∧ c.format = .f8A ∧ ch.addr = true := by
  simp [addressEnds, and_assoc]

theorem joinMessage_of_none {s : State} {i : LineId} (h : (s.line i).msg = none) (ch : Character) :
    joinMessage s i ch = s.setMsg i (some (Message.add (s.line i).cfg (openMessage (s.line i).cfg ch) ch)) := by
  simp only [joinMessage, h]

theorem joinMessage_of_some {s : State} {i : LineId} {m : Message} (h : (s.line i).msg = some m) (ch : Character) :
    joinMessage s i ch = s.setMsg i (some (Message.add (s.line i).cfg m ch)) := by
  simp only [joinMessage, h]

theorem assembleCharacter_of_none {s : State} {i : LineId} (h : (s.line i).msg = none) (ch : Character) :
    assembleCharacter s i ch = s.setMsg i (some (Message.add (s.line i).cfg (openMessage (s.line i).cfg ch) ch)) := by
  rw [← joinMessage_of_none h, assembleCharacter, completeOpen_of_none h, ite_self]

theorem assembleCharacter_of_joins {s : State} {i : LineId} {ch : Character}
    (h : addressEnds (s.line i).cfg ch = false) : assembleCharacter s i ch = joinMessage s i ch :=
  if_neg (ne_true_of_eq_false h)

theorem assembleCharacter_of_ends {s : State} {i : LineId} {m : Message} {ch : Character}
    (h : (s.line i).msg = some m) (ends : addressEnds (s.line i).cfg ch = true) :
    assembleCharacter s i ch =
      (completeMessage s i .address m).setMsg i
        (some (Message.add (s.line i).cfg (openMessage (s.line i).cfg ch) ch)) := by
  have line := completeMessage_line_same s i .address m
  rw [assembleCharacter, if_pos ends, completeOpen_of_some h, joinMessage_of_none (by rw [line]), line]

/-- Within the first 256 positions, entries are stored while there is room (R23). -/
theorem addEntries_of_near {position : Nat} (near : position ≤ 255) (ks : List StatusKind) (l : List StatusEntry) :
    addEntries position ks l =
      (l ++ (ks.take (8 - l.length)).map (fun k => { position := position, kind := k }),
        decide (8 - l.length < ks.length)) := by
  induction ks generalizing l with
  | nil => simp [addEntries]
  | cons k t ih =>
    by_cases room : l.length < 8
    · obtain ⟨n, hn⟩ : ∃ n, 8 - l.length = n + 1 := ⟨7 - l.length, by omega⟩
      have less : 8 - (l.length + 1) = n := by omega
      rw [addEntries, if_pos ⟨room, near⟩, ih, hn]
      simp [less]
    · have full : 8 - l.length = 0 := by omega
      rw [addEntries, if_neg (fun h => room h.1), ih, full]
      simp

/-- Beyond the first 256 positions, every entry is lost (R23). -/
theorem addEntries_of_far {position : Nat} (far : 255 < position) (ks : List StatusKind) (l : List StatusEntry) :
    addEntries position ks l = (l, decide (ks ≠ [])) := by
  induction ks with
  | nil => simp [addEntries]
  | cons k t ih =>
    rw [addEntries, if_neg (fun h => absurd h.2 (Nat.not_le.2 far)), ih]
    simp

theorem addEntries_extends (position : Nat) (ks : List StatusKind) (l : List StatusEntry) :
    (addEntries position ks l).1.length ≤ max 8 l.length ∧ l <+: (addEntries position ks l).1 := by
  rcases Nat.lt_or_ge 255 position with far | near
  · rw [addEntries_of_far far]
    exact ⟨le_max_right _ _, List.prefix_refl _⟩
  · rw [addEntries_of_near near]
    refine ⟨?_, List.prefix_append _ _⟩
    simp only [List.length_append, List.length_map, List.length_take]
    omega

section
variable (c : LineSettings) (m : Message) (ch : Character)

theorem Message.add_lead :
    (m.received = 0 → (Message.add c m ch).lead0 = ch.data) ∧
    (m.received ≠ 0 → (Message.add c m ch).lead0 = m.lead0) ∧
    (m.received = 1 → (Message.add c m ch).lead1 = some ch.data) ∧
    (m.received ≠ 1 → (Message.add c m ch).lead1 = m.lead1) :=
  ⟨fun h => if_pos h, fun h => if_neg h, fun h => if_pos h, fun h => if_neg h⟩

theorem Message.add_stored :
    (m.stored.length < c.maxLength →
      (Message.add c m ch).stored = m.stored ++ [ch.data] ∧ (Message.add c m ch).flags.trunc = m.flags.trunc) ∧
    (c.maxLength ≤ m.stored.length →
      (Message.add c m ch).stored = m.stored ∧ (Message.add c m ch).flags.trunc = true) := by
  refine ⟨fun h => ?_, fun h => ?_⟩
  · simp [Message.add, h]
  · simp [Message.add, Nat.not_lt.2 h]

theorem Message.add_coll :
    (m.received = 0 → (Message.add c m ch).flags.coll = m.flags.coll) ∧
    (1 ≤ m.received → (Message.add c m ch).flags.coll = (m.flags.coll || (ch.echo != m.flags.own))) := by
  refine ⟨fun h => ?_, fun h => ?_⟩
  · simp [Message.add, echoMismatch, h]
  · simp [Message.add, echoMismatch, Nat.ne_of_gt h]

theorem Message.add_status {kinds : List StatusKind} (hk : kinds = entryKinds c ch m.received) :
    (m.received ≤ 255 →
      (Message.add c m ch).status = m.status ++
        (kinds.take (8 - m.status.length)).map (fun k => { position := m.received, kind := k }) ∧
      ((Message.add c m ch).flags.statOvf = true ↔
        m.flags.statOvf = true ∨ 8 - m.status.length < kinds.length)) ∧
    (255 < m.received →
      (Message.add c m ch).status = m.status ∧
        ((Message.add c m ch).flags.statOvf = true ↔ m.flags.statOvf = true ∨ kinds ≠ [])) := by
  refine ⟨fun near => ?_, fun far => ?_⟩
  · simp only [Message.add, ← hk, addEntries_of_near near, Bool.or_eq_true, decide_eq_true_eq, and_self]
  · simp only [Message.add, ← hk, addEntries_of_far far, Bool.or_eq_true, decide_eq_true_eq, and_self]

end

/-- Settles O23. -/
theorem characterJoinsItsMessage : Obligations.CharacterJoinsItsMessage := by
  refine ⟨fun s i ch => ⟨fun none => assembleCharacter_of_none none ch,
    fun m some => ⟨fun joins => ?_, fun gap format addr => ?_⟩⟩, fun c o ch ho => ?_,
    fun c m n ch kinds hn hk => ?_⟩
  · have stays : addressEnds (s.line i).cfg ch = false := by
      rw [Bool.eq_false_iff, ne_eq, addressEnds_iff]
      rintro ⟨mode, format, addr⟩
      rcases joins with h | h | h
      · exact mode h
      · exact h format
      · rw [addr] at h; cases h
    rw [assembleCharacter_of_joins stays, joinMessage_of_some some]
  · exact assembleCharacter_of_ends some ((addressEnds_iff ..).2 ⟨gap, format, addr⟩)
  · subst ho
    refine ⟨rfl, rfl, rfl, rfl, rfl, rfl, rfl, ?_⟩
    simp only [openMessage, openingFlags, Bool.decide_and, decide_not, Bool.and_assoc]
    cases ch.addr <;> rfl
  · subst hn
    obtain ⟨lead0, lead0', lead1, lead1'⟩ := Message.add_lead c m ch
    obtain ⟨keeps, drops⟩ := Message.add_stored c m ch
    obtain ⟨first, later⟩ := Message.add_coll c m ch
    obtain ⟨near, far⟩ := Message.add_status c m ch hk
    obtain ⟨bound, extends_⟩ := addEntries_extends m.received (entryKinds c ch m.received) m.status
    exact ⟨rfl, rfl, rfl, rfl, rfl, lead0, lead0', lead1, lead1', keeps, drops, rfl, rfl, rfl, rfl, rfl, rfl, first,
      later, bound, extends_, near, far⟩

end Sys2Proof.Machine

/-! PROOFS. The tick: the counter, everything that counts in ticks, and the timer events it causes (R38, R39, R54,
R93). -/

namespace Sys2Proof.Machine

/-! ### Events that arrive together (R79) -/

theorem putAt_perm (e : SeqEvent) (l : List SeqEvent) (n : Nat) : (putAt e l n).Perm (e :: l) := by
  induction l generalizing n with
  | nil => exact .refl _
  | cons x t ih =>
    rw [putAt]
    split_ifs
    · exact .refl _
    · exact ((ih (n - 1)).cons x).trans (List.Perm.swap e x t)

theorem arrangeEvents_perm (free : Nat) (es : List SeqEvent) : (arrangeEvents free es).Perm es := by
  induction es with
  | nil => exact .refl _
  | cons e t ih => exact (putAt_perm e _ _).trans (ih.cons e)

@[simp] theorem State.joinQueue_out (s : State) (e : SeqEvent) : (s.joinQueue e).seq.out = s.seq.out := by
  unfold State.joinQueue
  split_ifs
  · rfl
  · simp [State.seqFault, State.raise]
  · rfl

theorem State.joinAll_out (s : State) (es : List SeqEvent) : (s.joinAll es).seq.out = s.seq.out := by
  induction es generalizing s with
  | nil => rfl
  | cons e t ih => rw [State.joinAll, ih, State.joinQueue_out]

/-! ### The tick (R38, R39) -/

theorem State.tickCounter_of_counting {s : State} (h : s.tb.counter ≠ 0xFFFFFFFF) :
    s.tickCounter = { s with tb := { s.tb with counter := s.tb.counter + 1 } } := by
  rw [State.tickCounter, if_neg]
  · rfl
  · simpa [State.wrapping] using h

theorem State.tickCounter_of_wrap {s : State} (h : s.tb.counter = 0xFFFFFFFF) :
    s.tickCounter = State.offerSet { s with tb := { s.tb with counter := 0, epoch := s.tb.epoch + 1 } } 0xF
      (epochRecord (s.tb.epoch + 1) none) := by
  rw [State.tickCounter, if_pos]
  · rfl
  · simpa [State.wrapping] using h

/-- Everything that counts in ticks advanced, on a part whose counter has moved to that of `w`. -/
def State.ticked (s w : State) : State :=
  { w with
    lines := s.lines.map Line.tick, timers := s.timers.map TimerUnit.tick
    seq := { s.seq with out := s.seq.out.tick }, free := s.free + s.expiries.length }

theorem State.tick_eq (s : State) :
    s.tick = (s.ticked s.tickCounter).joinAll (arrangeEvents s.free s.expiries) := by
  by_cases h : s.tb.counter = 0xFFFFFFFF
  · rw [State.tick, State.tickCounter_of_wrap h]
    rfl
  · rw [State.tick, State.tickCounter_of_counting h]
    rfl

theorem State.tick_of_no_expiry {s : State} (h : s.expiries = []) : s.tick = s.ticked s.tickCounter := by
  rw [State.tick_eq, h]
  rfl

theorem execCounterWrap_eq {s : State} (h : s.tb.counter = 0xFFFFFFFF) : exec .counterWrap s = exec .tick s :=
  congrArg Host.Outcome.next (if_pos (by simpa [State.wrapping] using h))

theorem execTimerExpiry_eq {s : State} {u : UnitId} (h : (s.timer u).expiring = true) :
    exec (.timerExpiry u) s = exec .tick s := congrArg Host.Outcome.next (if_pos h)

theorem quadList_filter_eq : ∀ u : Fin 4, quadList.filter (fun v => v == u) = [u] := by decide

/-- A single unit expires. -/
theorem State.expiries_of_one {s : State} {u : UnitId} (h : (s.timer u).expiring = true)
    (others : ∀ v, v ≠ u → (s.timer v).expiring = false) :
    s.expiries = [.timer u (s.timer u).flag (s.timer u).generation] := by
  have one : quadList.filter (fun v => (s.timer v).expiring) = quadList.filter (fun v => v == u) := by
    refine List.filter_congr fun v _ => ?_
    by_cases e : v = u
    · simp [e, h]
    · simp [e, others v e]
  rw [State.expiries, one, quadList_filter_eq]
  rfl

/-- What ticks do to lines, the trigger output and timer units. -/
theorem Line.tick_eq (l : Line) : l.tick = { l with
    rx := if l.rx.state = .char ∨ l.rx.state = .breakHold then
        { l.rx with tickCount := satInc 0xFFFFFF l.rx.tickCount }
      else l.rx
    msg := l.msg.map (fun m => { m with ticks := satInc 0xFFFFFF m.ticks }) } := by
  have rx : l.rx.tick = if l.rx.state = .char ∨ l.rx.state = .breakHold then
        { l.rx with tickCount := satInc 0xFFFFFF l.rx.tickCount }
      else l.rx := by
    cases h : l.rx.state <;> simp [Receiver.tick, Config.tickMax, h]
  rw [← rx]
  rfl

theorem TrigOut.tick_of_none {o : TrigOut} (h : o.pulse = none) : o.tick = o := by
  simp only [TrigOut.tick, h]

theorem TrigOut.tick_of_last {o : TrigOut} {n : Nat} (h : o.pulse = some n) (last : n ≤ 1) :
    o.tick = { o with pulse := none } := by
  simp only [TrigOut.tick, h, if_pos last]

theorem TrigOut.tick_of_more {o : TrigOut} {n : Nat} (h : o.pulse = some n) (more : 1 < n) :
    o.tick = { o with pulse := some (n - 1) } := by
  simp only [TrigOut.tick, h, if_neg (Nat.not_le.2 more)]

section
variable {t : TimerUnit}

theorem TimerUnit.expiring_iff (t : TimerUnit) : t.expiring = true ↔ t.state = .running ∧ t.limit ≤ t.count + 1 := by
  simp [TimerUnit.expiring]

theorem TimerUnit.tick_of_not_running (h : t.state ≠ .running) : t.tick = t := by
  unfold TimerUnit.tick
  cases state : t.state with
  | idle => rfl
  | expired => rfl
  | running => exact absurd state h

theorem TimerUnit.tick_of_counting (h : t.state = .running) (below : t.count + 1 < t.limit) :
    t.tick = { t with count := t.count + 1 } := by
  simp only [TimerUnit.tick, h, if_pos below]

theorem TimerUnit.tick_of_once (h : t.state = .running) (reached : t.limit ≤ t.count + 1) (once : t.mode = .once) :
    t.tick = { t with count := t.limit, state := .expired } := by
  simp only [TimerUnit.tick, h, if_neg (Nat.not_lt.2 reached), once]

theorem TimerUnit.tick_of_repeating (h : t.state = .running) (reached : t.limit ≤ t.count + 1)
    (repeating : t.mode = .repeating) : t.tick = { t with count := 0 } := by
  simp only [TimerUnit.tick, h, if_neg (Nat.not_lt.2 reached), repeating]

end

/-- Settles O24. -/
theorem tickAdvances : Obligations.TickAdvances := by
  refine ⟨fun s none => ⟨fun counting => ?_, fun wrap w hw => ⟨execCounterWrap_eq wrap, ?_⟩⟩,
    fun s u counting expires others place => ⟨execTimerExpiry_eq expires, ?_⟩,
    fun s last => ⟨s.tick, ?_, rfl, ?_⟩,
    fun s w hcount hwrap => ⟨⟨_, arrangeEvents_perm s.free s.expiries, ?_⟩, rfl, fun u => execTimerExpiry_eq,
      execCounterWrap_eq⟩,
    fun s => ⟨rfl, fun e rest => rfl⟩, Line.tick_eq,
    fun o => ⟨TrigOut.tick_of_none, fun n pulse => ⟨TrigOut.tick_of_last pulse, TrigOut.tick_of_more pulse⟩⟩,
    fun t => ⟨t.expiring_iff, TimerUnit.tick_of_not_running, TimerUnit.tick_of_counting,
      fun running reached => ⟨TimerUnit.tick_of_once running reached, TimerUnit.tick_of_repeating running reached⟩⟩⟩
  · refine congrArg Host.Outcome.next ?_
    rw [State.tick_of_no_expiry none, State.tickCounter_of_counting counting, State.ticked, none]
    rfl
  · refine (execCounterWrap_eq wrap).trans (congrArg Host.Outcome.next ?_)
    rw [State.tick_of_no_expiry none, State.tickCounter_of_wrap wrap, ← hw, State.ticked, none, hw]
    rfl
  · have one := State.expiries_of_one expires others
    refine (execTimerExpiry_eq expires).trans (congrArg Host.Outcome.next ?_)
    rw [State.tick_eq, one, State.tickCounter_of_counting counting]
    refine (State.joinQueue_of_place ?_ _).trans ?_
    · exact place
    · rw [State.ticked, one]
      rfl
  · exact congrArg Host.Outcome.next (if_pos (by rw [TrigOut.ending, last]; rfl))
  · rw [State.tick_eq, State.joinAll_out]
    exact TrigOut.tick_of_last last (le_refl 1)
  · have moved : s.tickCounter = w := by
      by_cases wrap : s.tb.counter = 0xFFFFFFFF
      · rw [State.tickCounter_of_wrap wrap, hwrap wrap]
      · rw [State.tickCounter_of_counting wrap, hcount wrap]
    exact congrArg Host.Outcome.next (s.tick_eq.trans (by rw [moved]; rfl))

end Sys2Proof.Machine

/-! PROOFS. The time base, the timer units and the event input pins: their requests, edges and captures (R41 to R53). -/

namespace Sys2Proof.Machine

/-! ### TIME_CONFIG and TIMER_CONFIG (R41, R49) -/

theorem timeConfig_of_stopped {s : State} (lines : ∀ i : LineId, (s.line i).rx.state = .off)
    (units : ∀ u : UnitId, (s.timer u).state = .idle) (d : Byte) :
    timeConfig s d = .ok { s with tb := { s.tb with tickDiv := d } } [] := by
  rw [timeConfig, if_pos]
  · rfl
  · simp [lines, units]

theorem timeConfig_of_running {s : State}
    (h : (∃ i : LineId, (s.line i).rx.state ≠ .off) ∨ ∃ u : UnitId, (s.timer u).state ≠ .idle) (d : Byte) :
    timeConfig s d = .refuse s .state := by
  rw [timeConfig, if_neg]
  intro stopped
  simp only [Bool.and_eq_true, List.all_eq_true, beq_iff_eq] at stopped
  obtain ⟨lines, units⟩ := stopped
  rcases h with ⟨i, running⟩ | ⟨u, running⟩
  · exact running (lines i (mem_quadList i))
  · exact running (units u (mem_quadList u))

theorem TimerMode.ofCode_eq_some {b : Byte} {m : TimerMode} :
    TimerMode.ofCode b = some m ↔ b = match m with | .once => 0 | .repeating => 1 := by
  revert b; cases m <;> decide +kernel

theorem TimerMode.ofCode_above {b : Byte} (h : 1 < b.toNat) : TimerMode.ofCode b = none := by
  revert b; decide +kernel

theorem flagOptOfByte_above {b : Byte} (h : 8 ≤ b.toNat ∧ b ≠ 0xFF) : flagOptOfByte b = none := by
  revert b; decide +kernel

theorem natOfBytes_three_le (a b c : Byte) : natOfBytes [a, b, c] ≤ 16777215 := by
  have := a.isLt
  have := b.isLt
  have := c.isLt
  simp only [natOfBytes]
  omega

section
variable {s : State} {u : UnitId}

theorem timerConfig_of_busy (h : (s.timer u).state ≠ .idle) (limit : Nat) (m f k : Byte) :
    timerConfig s u limit m f k = .refuse s .state := if_pos h

theorem timerConfig_of_bad (h : (s.timer u).state = .idle) {limit : Nat} {m f k : Byte}
    (bad : inRange 1 16777215 limit = none ∨ TimerMode.ofCode m = none ∨ flagOptOfByte f = none ∨
      quadSetOfByte k = none) : timerConfig s u limit m f k = .refuse s .range := by
  rw [timerConfig, if_neg (not_not.2 h)]
  split
  · next e1 e2 e3 e4 => simp [e1, e2, e3, e4] at bad
  · rfl

theorem timerConfig_of_good (h : (s.timer u).state = .idle) {limit l : Nat} {mb fb kb : Byte} {m : TimerMode}
    {f : Option FlagId} {k : QuadSet} (limits : inRange 1 16777215 limit = some l)
    (mode : TimerMode.ofCode mb = some m) (flag : flagOptOfByte fb = some f) (mask : quadSetOfByte kb = some k) :
    timerConfig s u limit mb fb kb =
      .ok (s.setTimer u { s.timer u with limit := l, mode := m, flag := f, mask := k }) [] := by
  rw [timerConfig, if_neg (not_not.2 h), limits, mode, flag, mask]

end

/-- Settles O25. -/
theorem timeAndTimerConfig : Obligations.TimeAndTimerConfig := by
  refine ⟨fun tag d s s1 hTaken => ⟨fun lines units => ?_, fun running => ?_⟩,
    fun tag u l0 l1 l2 mb fb kb s s1 hTaken => ⟨fun busy => ?_, fun idle bad => ?_,
      fun m f k idle limit mode flag mask => ?_⟩⟩
  · exact exec_ok hTaken rfl (timeConfig_of_stopped lines units d) rfl
  · exact exec_refuse hTaken rfl (timeConfig_of_running running d)
  · exact exec_refuse hTaken rfl ((withUnit_quad ..).trans (timerConfig_of_busy busy ..))
  · refine exec_range hTaken rfl ((withUnit_quad ..).trans (timerConfig_of_bad idle ?_))
    rcases bad with zero | above | above | above
    · exact .inl (if_neg (by omega))
    · exact .inr (.inl (TimerMode.ofCode_above above))
    · exact .inr (.inr (.inl (flagOptOfByte_above above)))
    · exact .inr (.inr (.inr (quadSetOfByte_above above)))
  · refine exec_ok hTaken rfl ((withUnit_quad ..).trans (timerConfig_of_good idle ?_ (TimerMode.ofCode_eq_some.2 mode)
      (flagOptOfByte_eq_some.2 flag) (quadSetOfByte_eq_some.2 mask))) rfl
    exact inRange_self (Nat.pos_of_ne_zero limit) (natOfBytes_three_le ..)

/-! ### Edges (R44 to R48) -/

theorem PinFunction.ofCode_eq_some {b : Byte} {f : PinFunction} : PinFunction.ofCode b = some f ↔
    b = match f with | .off => 0 | .syncCapture => 1 | .syncRestart => 2 | .flag => 3 := by
  revert b; cases f <;> decide +kernel

theorem EdgeSelect.ofCode_eq_some {b : Byte} {e : EdgeSelect} : EdgeSelect.ofCode b = some e ↔
    b = match e with | .rising => 0 | .falling => 1 | .both => 2 := by
  revert b; cases e <;> decide +kernel

theorem InputPin.valid_iff (p : InputPin) (e : Edge) : p.valid e = true ↔
    p.func ≠ .off ∧ (p.edge = .both ∨ (p.edge = .rising ∧ e = .rising) ∨ (p.edge = .falling ∧ e = .falling)) := by
  cases func : p.func <;> cases edge : p.edge <;> cases e <;> simp [InputPin.valid, func, edge]

section
variable {s : State} {p : PinId} {e : Edge}

theorem takeEdge_of_invalid (h : (s.pin p).valid e = false) : s.takeEdge p e = s := if_neg (ne_true_of_eq_false h)

theorem takeEdge_of_capture (h : (s.pin p).valid e = true) (func : (s.pin p).func = .syncCapture) :
    s.takeEdge p e = s.offerSet (s.pin p).mask (syncRecord p e s.tb.counter s.epochTag) := by
  simp only [State.takeEdge, if_pos h, func]

theorem takeEdge_of_restart (h : (s.pin p).valid e = true) (func : (s.pin p).func = .syncRestart) :
    s.takeEdge p e = State.offerSet { s with tb := { s.tb with counter := 0, epoch := s.tb.epoch + 1 } } 0xF
      (epochRecord (s.tb.epoch + 1) (some p)) := by
  simp only [State.takeEdge, if_pos h, func]
  rfl

theorem takeEdge_of_flag (h : (s.pin p).valid e = true) (func : (s.pin p).func = .flag) :
    s.takeEdge p e = s.joinQueue (.input p (s.pin p).flag) := by
  simp only [State.takeEdge, if_pos h, func]

/-- An edge takes no RESET. -/
theorem takeEdge_resetTaken (s : State) (p : PinId) (e : Edge) :
    (s.takeEdge p e).link.resetTaken = s.link.resetTaken := by
  cases valid : (s.pin p).valid e with
  | false => rw [takeEdge_of_invalid valid]
  | true =>
    cases func : (s.pin p).func with
    | off => simp only [State.takeEdge, if_pos valid, func]
    | syncCapture => rw [takeEdge_of_capture valid func, State.offerSet_resetTaken]
    | syncRestart => rw [takeEdge_of_restart valid func, State.offerSet_resetTaken]
    | flag => rw [takeEdge_of_flag valid func, State.joinQueue_resetTaken]

end

/-! ### INPUT_CONFIG (R43, R45) -/

theorem inputConfig_of_bad {s : State} {b fb eb flb mb : Byte}
    (bad : PinFunction.ofCode fb = none ∨ EdgeSelect.ofCode eb = none ∨ flagOfByte flb = none ∨
      quadSetOfByte mb = none) : inputConfig s b fb eb flb mb = .refuse s .range := by
  unfold inputConfig
  split
  · next e1 e2 e3 e4 => simp [e1, e2, e3, e4] at bad
  · rfl

theorem inputConfig_of_good {s : State} {p : PinId} {b fb eb flb mb : Byte} {f : PinFunction} {e : EdgeSelect}
    {fl : FlagId} {m : QuadSet} (pin : pinOfByte b = some p) (func : PinFunction.ofCode fb = some f)
    (edge : EdgeSelect.ofCode eb = some e) (flag : flagOfByte flb = some fl) (mask : quadSetOfByte mb = some m) :
    inputConfig s b fb eb flb mb = .ok (s.configurePin p f e fl m) [] := by
  rw [inputConfig, pin, func, edge, flag, mask]

/-- A pin under its new settings (R43, R45). -/
def InputPin.configured (p : InputPin) (f : PinFunction) (e : EdgeSelect) (fl : FlagId) (m : QuadSet) : InputPin :=
  { p with
    func := f, edge := e, flag := fl, mask := m
    marker := p.marker || (decide (p.func = .off) && decide (f ≠ .off)) }

theorem configurePin_eq (s : State) (p : PinId) (f : PinFunction) (e : EdgeSelect) (fl : FlagId) (m : QuadSet) :
    s.configurePin p f e fl m =
      if (s.pin p).func = .off ∧ f ≠ .off ∧ (s.pin p).marker = false ∧ e ≠ .falling ∧
          (s.pin p).accepted = some .high then
        (s.setPin p ((s.pin p).configured f e fl m)).takeEdge p .rising
      else s.setPin p ((s.pin p).configured f e fl m) := by
  have marker : ((s.pin p).func == .off && f != .off) = (decide ((s.pin p).func = .off) && decide (f ≠ .off)) := by
    simp [bne, beq_eq_decide]
  simp only [State.configurePin, firstEnableEdge, marker, InputPin.configured, Bool.and_eq_true, beq_iff_eq,
    bne_iff_ne, Bool.not_eq_true', decide_eq_true_eq, and_assoc]

/-- Settles O26. -/
theorem inputConfigReplacesSettings : Obligations.InputConfigReplacesSettings := by
  refine ⟨fun b f => PinFunction.ofCode_eq_some, fun b e => EdgeSelect.ofCode_eq_some, InputPin.valid_iff,
    fun s p e => ⟨takeEdge_of_invalid, fun valid => ⟨takeEdge_of_capture valid, takeEdge_of_restart valid,
      takeEdge_of_flag valid⟩⟩,
    fun tag p fb eb flb mb s s1 hTaken => ⟨fun bad => ?_, fun f e fl m c func edge flag mask hc => ?_⟩⟩
  · refine exec_range hTaken rfl (inputConfig_of_bad ?_)
    rcases bad with bad | bad | above | above
    · exact .inl bad
    · exact .inr (.inl bad)
    · exact .inr (.inr (.inl (flagOfByte_above above)))
    · exact .inr (.inr (.inr (quadSetOfByte_above above)))
  · have acts := inputConfig_of_good (s := s1) (pinOfByte_ofNat p) func edge (flagOfByte_of_toNat flag)
      (quadSetOfByte_of_toNat mask)
    have configured : s1.setPin p ((s1.pin p).configured f e fl m) = c := hc.symm
    have noReset : c.link.resetTaken = s1.link.resetTaken := by rw [hc]; rfl
    rw [configurePin_eq, configured] at acts
    refine ⟨fun off on fresh rising high => ?_, fun other => ?_⟩
    · rw [if_pos ⟨off, on, fresh, rising, high⟩] at acts
      exact exec_ok hTaken rfl acts ((takeEdge_resetTaken ..).trans noReset)
    · rw [if_neg] at acts
      · exact exec_ok hTaken rfl acts noReset
      · rintro ⟨off, on, fresh, rising, high⟩
        rcases other with h | h | h | h | h
        · exact h off
        · exact on h
        · rw [fresh] at h; cases h
        · exact rising h
        · exact h high

/-! ### Samples of a pin (R44) -/

section
variable {s : State} {p : PinId} {l a : PinLevel}

theorem samplePin_of_unset (h : (s.pin p).accepted = none) :
    s.samplePin p l = s.setPin p { s.pin p with accepted := some l, opposite := false } := by
  simp only [State.samplePin, h]

theorem samplePin_of_same (h : (s.pin p).accepted = some l) :
    s.samplePin p l = s.setPin p { s.pin p with opposite := false } := by
  simp only [State.samplePin, h, if_true]

theorem samplePin_of_first (h : (s.pin p).accepted = some a) (other : l ≠ a) (first : (s.pin p).opposite = false) :
    s.samplePin p l = s.setPin p { s.pin p with opposite := true } := by
  simp only [State.samplePin, h, if_neg other, first, Bool.false_eq_true, if_false]

theorem samplePin_of_second (h : (s.pin p).accepted = some a) (other : l ≠ a) (second : (s.pin p).opposite = true) :
    s.samplePin p l =
      (s.setPin p { s.pin p with accepted := some l, opposite := false }).takeEdge p (edgeTo l) := by
  simp only [State.samplePin, h, if_neg other, second, if_true]

end

theorem samplePins_append (s : State) (p : PinId) (a b : List PinLevel) :
    s.samplePins p (a ++ b) = (s.samplePins p a).samplePins p b := by
  induction a generalizing s with
  | nil => rfl
  | cons l t ih => exact ih _

/-- Two samples at the opposite level are an accepted change. -/
theorem samplePins_two {s : State} {p : PinId} {l a : PinLevel} (h : (s.pin p).accepted = some a) (other : l ≠ a)
    (first : (s.pin p).opposite = false) :
    s.samplePins p [l, l] =
      (s.setPin p { s.pin p with accepted := some l, opposite := false }).takeEdge p (edgeTo l) := by
  have again := samplePin_of_second (s := s.setPin p { s.pin p with opposite := true }) (p := p) (a := a)
    (by simpa using h) other (by simp)
  rw [State.samplePins, State.samplePins, State.samplePins, samplePin_of_first h other first, again]
  rw [State.pin_setPin_same, State.setPin_setPin]

/-- Settles O27. -/
theorem inputEdgeActs : Obligations.InputEdgeActs := by
  refine ⟨⟨rfl, rfl⟩, fun p a b s t h => ?_, fun p a s same => congrArg Host.Outcome.next (samplePin_of_same same),
    fun p l s t ht => ⟨fun unset => ?_, fun a accepted other first => ?_⟩⟩
  · have done : s.samplePins p a = t := Host.Outcome.next.inj h
    exact congrArg Host.Outcome.next ((samplePins_append ..).trans (congrArg (State.samplePins · p b) done))
  · exact congrArg Host.Outcome.next ((samplePin_of_unset unset).trans ht.symm)
  · have pin : t.pin p = { s.pin p with accepted := some l, opposite := false } := by rw [ht]; simp
    have same : (t.pin p).valid (edgeTo l) = (s.pin p).valid (edgeTo l) := by rw [pin]; rfl
    have func : (t.pin p).func = (s.pin p).func := by rw [pin]
    have mask : (t.pin p).mask = (s.pin p).mask := by rw [pin]
    have flag : (t.pin p).flag = (s.pin p).flag := by rw [pin]
    have acted : exec (.inputEdge p [l, l]) s = .next (t.takeEdge p (edgeTo l)) := by
      rw [ht]
      exact congrArg Host.Outcome.next (samplePins_two accepted other.symm first)
    refine ⟨congrArg Host.Outcome.next (samplePin_of_first accepted other.symm first), fun invalid => ?_,
      fun valid capture => ?_, fun valid restart => ?_, fun valid isFlag => ?_, fun valid isFlag place => ?_⟩
    · rw [acted, takeEdge_of_invalid (same.trans invalid)]
    · rw [acted, takeEdge_of_capture (same.trans valid) (func.trans capture), mask, ht]
      rfl
    · rw [acted, takeEdge_of_restart (same.trans valid) (func.trans restart), ht]
      rfl
    · rw [acted, takeEdge_of_flag (same.trans valid) (func.trans isFlag), flag]
    · rw [acted, takeEdge_of_flag (same.trans valid) (func.trans isFlag), flag,
        State.joinQueue_of_place (by rw [ht]; exact place), ht]
      rfl

/-! ### TIMER_CONTROL CAPTURE (R53) -/

/-- Settles O29. -/
theorem timerCapture : Obligations.TimerCapture := fun _ _ _ _ hTaken =>
  (congrArg Host.Outcome.next (if_pos rfl)).trans
    (exec_ok hTaken rfl (withUnit_quad ..) (State.offerSet_resetTaken ..))

end Sys2Proof.Machine

/-! PROOFS. The filter table: its requests, the match and the answer (R57 to R69). -/

namespace Sys2Proof.Machine

/-! ### Entries out of range (R134) -/

theorem AddressTest.ofCode_isSome {n : Nat} (h : n ≤ 2) : ∃ x, AddressTest.ofCode n = some x :=
  Option.isSome_iff_exists.1 (by interval_cases n <;> rfl)

theorem ErrorClass.ofCode_isSome {n : Nat} (h : n ≤ 2) : ∃ x, ErrorClass.ofCode n = some x :=
  Option.isSome_iff_exists.1 (by interval_cases n <;> rfl)

theorem Origin.ofCode_isSome {n : Nat} (h : n ≤ 2) : ∃ x, Origin.ofCode n = some x :=
  Option.isSome_iff_exists.1 (by interval_cases n <;> rfl)

theorem FilterAction.ofCode_isSome {n : Nat} (h : n ≤ 2) : ∃ x, FilterAction.ofCode n = some x :=
  Option.isSome_iff_exists.1 (by interval_cases n <;> rfl)

theorem flagOptOfByte_isSome {b : Byte} (h : ¬(8 ≤ b.toNat ∧ b ≠ 0xFF)) : ∃ f, flagOptOfByte b = some f :=
  Option.isSome_iff_exists.1 (by revert b; decide +kernel)

theorem byteOfFlagOpt_inside (f : Option FlagId) : ¬(8 ≤ (byteOfFlagOpt f).toNat ∧ byteOfFlagOpt f ≠ 0xFF) := by
  revert f; decide

theorem natOfBytes_two_le (a b : Byte) : natOfBytes [a, b] ≤ 65535 := by
  have := a.isLt
  have := b.isLt
  simp only [natOfBytes]
  omega

theorem twoBits_values (b : Byte) :
    twoBits b 0 = b.toNat % 4 ∧ twoBits b 2 = b.toNat / 4 % 4 ∧ twoBits b 4 = b.toNat / 16 % 4 ∧
      twoBits b 6 = b.toNat / 64 := by
  have := b.isLt
  simp only [twoBits]
  refine ⟨?_, ?_, ?_, ?_⟩ <;> norm_num
  omega

theorem parseFilterEntry_eq_none (b0 lines fv fm sv sm codes flag n0 n1 x0 x1 s0 s1 : Byte) :
    parseFilterEntry [b0, lines, fv, fm, sv, sm, codes, flag, n0, n1, x0, x1, s0, s1] = none ↔
      16 ≤ lines.toNat ∨ codes.toNat % 4 = 3 ∨ codes.toNat / 4 % 4 = 3 ∨ codes.toNat / 16 % 4 = 3 ∨
        codes.toNat / 64 = 3 ∨ (8 ≤ flag.toNat ∧ flag ≠ 0xFF) ∨ natOfBytes [n0, n1] = 0 ∨ natOfBytes [x0, x1] = 0 ∨
        natOfBytes [x0, x1] < natOfBytes [n0, n1] ∨ 256 < natOfBytes [s0, s1] := by
  obtain ⟨c0, c2, c4, c6⟩ := twoBits_values codes
  rw [← c0, ← c2, ← c4, ← c6]
  constructor
  · intro isNone
    by_contra inside
    simp only [not_or] at inside
    obtain ⟨h1, h2, h3, h4, h5, h6, h7, -, h9, h10⟩ := inside
    have top : codes.toNat / 64 ≤ 3 := by have := codes.isLt; omega
    obtain ⟨address, e2⟩ := AddressTest.ofCode_isSome (n := twoBits codes 0) (by omega)
    obtain ⟨error, e3⟩ := ErrorClass.ofCode_isSome (n := twoBits codes 2) (by omega)
    obtain ⟨origin, e4⟩ := Origin.ofCode_isSome (n := twoBits codes 4) (by omega)
    obtain ⟨action, e5⟩ := FilterAction.ofCode_isSome (n := twoBits codes 6) (by omega)
    obtain ⟨mark, e6⟩ := flagOptOfByte_isSome h6
    have lineSet : lines.toNat = (BitVec.ofNat 4 lines.toNat).toNat := by rw [BitVec.toNat_ofNat]; omega
    have good := (parseFilterEntry_eq_some b0 lines fv fm sv sm codes flag n0 n1 x0 x1 s0 s1
      { enabled := b0.getLsbD 0, lines := BitVec.ofNat 4 lines.toNat, first := { value := fv, mask := fm },
        second := if b0.getLsbD 1 then some { value := sv, mask := sm } else none, address := address,
        lenMin := natOfBytes [n0, n1], lenMax := natOfBytes [x0, x1], errorClass := error, origin := origin,
        action := action, flag := mark, slice := natOfBytes [s0, s1] }).2
      ⟨lineSet, AddressTest.ofCode_eq_some.1 e2, ErrorClass.ofCode_eq_some.1 e3, Origin.ofCode_eq_some.1 e4,
        FilterAction.ofCode_eq_some.1 e5, flagOptOfByte_eq_some.1 e6,
        inRange_self (Nat.pos_of_ne_zero h7) (natOfBytes_two_le ..),
        inRange_self (Nat.not_lt.1 h9) (natOfBytes_two_le ..), inRange_self (Nat.zero_le _) (Nat.not_lt.1 h10), rfl, rfl,
        rfl⟩
    rw [isNone] at good
    cases good
  · intro outside
    by_contra isSome
    obtain ⟨e, h⟩ := Option.ne_none_iff_exists'.1 isSome
    obtain ⟨lineSet, address, error, origin, action, rfl, least, most, slice, -, -, -⟩ :=
      (parseFilterEntry_eq_some _ _ _ _ _ _ _ _ _ _ _ _ _ _ e).1 h
    have f1 : e.lines.toNat < 16 := e.lines.isLt
    have f2 := e.address.code_le
    have f3 := e.errorClass.code_le
    have f4 := e.origin.code_le
    have f5 := e.action.code_le
    have f6 := byteOfFlagOpt_inside e.flag
    have r1 := inRange_iff.1 least
    have r2 := inRange_iff.1 most
    have r3 := inRange_iff.1 slice
    simp only [f6, false_or] at outside
    omega

/-! ### FILTER_WRITE and FILTER_ENABLE (R67, R68) -/

theorem enabledMask_testBit (l : List Filter) (k : Nat) :
    (enabledMask l).testBit k = (l[k]?.map (·.entry.enabled)).getD false := by
  induction l generalizing k with
  | nil => simp [enabledMask]
  | cons f t ih =>
    cases k with
    | zero =>
      rw [enabledMask, Nat.testBit_zero]
      cases h : f.entry.enabled <;> simp [h]
    | succ k =>
      have half : enabledMask (f :: t) / 2 = enabledMask t := by
        rw [enabledMask]
        split_ifs <;> omega
      rw [Nat.testBit_succ, half, ih]
      rfl

section
variable {s : State} {e : Fin 32} {bytes : List Byte}

theorem filterWrite_of_enabled (h : (s.filter e).entry.enabled = true) :
    filterWrite s (BitVec.ofNat 8 e.val) bytes = .refuse s .state := by
  simp only [filterWrite, filterIndex_ofNat, if_pos h]

theorem filterWrite_of_bad (h : (s.filter e).entry.enabled = false) (bad : parseFilterEntry bytes = none) :
    filterWrite s (BitVec.ofNat 8 e.val) bytes = .refuse s .range := by
  simp only [filterWrite, filterIndex_ofNat, h, Bool.false_eq_true, if_false, bad]

theorem filterWrite_of_good (h : (s.filter e).entry.enabled = false) {entry : FilterEntry}
    (good : parseFilterEntry bytes = some entry) :
    filterWrite s (BitVec.ofNat 8 e.val) bytes = .ok (s.setFilter e { s.filter e with entry := entry }) [] := by
  simp only [filterWrite, filterIndex_ofNat, h, Bool.false_eq_true, if_false, good]

end

/-- Four little-endian bytes of a 32-bit word read back. -/
theorem word_bytesOfNat_four (w : BitVec 32) : BitVec.ofNat 32 (natOfBytes (bytesOfNat 4 w.toNat)) = w := by
  have := w.isLt
  refine BitVec.eq_of_toNat_eq ?_
  simp only [bytesOfNat, natOfBytes, BitVec.toNat_ofNat]
  omega

/-- Settles O30. -/
theorem filterWriteAndEnable : Obligations.FilterWriteAndEnable := by
  refine ⟨fun table e => ?_, parseFilterEntry_eq_none, fun tag e bytes s s1 length hTaken => ?_,
    fun tag en dis s s1 p hp hTaken => ?_⟩
  · rw [enabledMask_testBit]
    simp
  · have admitted : exactly 15 (BitVec.ofNat 8 e.val :: bytes).length = true := by simp [exactly, length]
    refine ⟨fun enabled => ?_, fun disabled bad => ?_, fun entry disabled good => ?_⟩
    · exact exec_refuse hTaken admitted (filterWrite_of_enabled enabled)
    · exact exec_range hTaken admitted (filterWrite_of_bad disabled bad)
    · exact exec_ok hTaken admitted (filterWrite_of_good disabled good) rfl
  · have length : p.length = 8 := by rw [hp, List.length_append, bytesOfNat_length, bytesOfNat_length]
    have admitted : exactly 8 p.length = true := by rw [length]; rfl
    have four : (bytesOfNat 4 en.toNat).length = 4 := bytesOfNat_length ..
    have first : BitVec.ofNat 32 (natOfBytes (p.take 4)) = en := by
      rw [hp, List.take_left' four, word_bytesOfNat_four]
    have second : BitVec.ofNat 32 (natOfBytes (p.drop 4)) = dis := by
      rw [hp, List.drop_left' four, word_bytesOfNat_four]
    have acts : filterEnable s1 (BitVec.ofNat 32 (natOfBytes (p.take 4))) (BitVec.ofNat 32 (natOfBytes (p.drop 4))) =
        filterEnable s1 en dis := by rw [first, second]
    refine ⟨fun both => ?_, fun disjoint =>
      ⟨s1.filters.mapIdx fun i f => f.enableBy en dis i, ?_, fun e => ?_⟩⟩
    · exact exec_range hTaken admitted (acts.trans (if_pos both))
    · exact exec_ok hTaken admitted (acts.trans (if_neg (not_not.2 disjoint))) rfl
    · simp only [Fin.getElem_fin, Vector.getElem_mapIdx]
      rfl

/-! ### The match (R57 to R61) -/

theorem ByteTest.passes_iff (t : ByteTest) (b : Byte) :
    t.passes b = true ↔ ∀ k : Fin 8, t.mask.getLsbD k.val = true → b.getLsbD k.val = t.value.getLsbD k.val := by
  rw [ByteTest.passes, beq_iff_eq]
  refine ⟨fun zero k set => ?_, fun agree => BitVec.eq_of_getLsbD_eq fun k hk => ?_⟩
  · have bit := congrArg (·.getLsbD k.val) zero
    rw [BitVec.getLsbD_and, BitVec.getLsbD_xor, set, Bool.and_true] at bit
    by_contra differ
    exact absurd (Bool.xor_iff_ne.2 differ) (by rw [bit]; simp)
  · have own := agree ⟨k, hk⟩
    cases set : t.mask.getLsbD k
    · simp [set]
    · simpa [set] using own set

theorem secondPasses_iff (t : Option ByteTest) (second : Option Byte) :
    secondPasses t second = true ↔ ∀ bt, t = some bt → ∃ b, second = some b ∧
      ∀ k : Fin 8, bt.mask.getLsbD k.val = true → b.getLsbD k.val = bt.value.getLsbD k.val := by
  cases t with
  | none => simp [secondPasses]
  | some bt =>
    cases second with
    | none => simp [secondPasses]
    | some b => simp [secondPasses, ByteTest.passes_iff]

theorem AddressTest.passes_iff (t : AddressTest) (a : Bool) :
    t.passes a = true ↔ (t = .startOnly → a = true) ∧ (t = .notStart → a = false) := by
  cases t <;> simp [AddressTest.passes]

theorem ErrorClass.passes_iff (t : ErrorClass) (a : Bool) :
    t.passes a = true ↔ (t = .clean → a = false) ∧ (t = .errored → a = true) := by
  cases t <;> simp [ErrorClass.passes]

theorem Origin.passes_iff (t : Origin) (a : Bool) :
    t.passes a = true ↔ (t = .ownOnly → a = true) ∧ (t = .foreignOnly → a = false) := by
  cases t <;> simp [Origin.passes]

/-! ### The answer (R62 to R65) -/

theorem flagBit?_bit_iff (o : Option FlagId) (n : FlagId) : (flagBit? o).getLsbD n.val = true ↔ o = some n := by
  revert o n; decide

theorem flagUnion_bit_iff (p : MsgProps) (table : List Filter) (n : FlagId) :
    (flagUnion p table).getLsbD n.val = true ↔
      ∃ f ∈ table, f.entry.matchesMsg p = true ∧ f.entry.flag = some n := by
  induction table with
  | nil => simp [flagUnion]
  | cons f t ih =>
    rw [flagUnion, BitVec.getLsbD_or, Bool.or_eq_true, ih, List.exists_mem_cons_iff]
    refine or_congr ?_ Iff.rfl
    cases matched : f.entry.matchesMsg p
    · simp
    · simpa using flagBit?_bit_iff f.entry.flag n

theorem decidingEntry_eq_none {p : MsgProps} {table : List Filter}
    (h : ∀ f ∈ table, f.entry.matchesMsg p = true → f.entry.action = .count) (i : Nat) :
    decidingEntry p i table = none := by
  induction table generalizing i with
  | nil => rfl
  | cons f t ih =>
    rw [decidingEntry, if_neg fun both => both.2 (h f (by simp) both.1)]
    exact ih (fun g member => h g (by simp [member])) _

theorem decidingEntry_eq_some {p : MsgProps} {table : List Filter} {k : Nat} {f : Filter}
    (own : table[k]? = some f) (matched : f.entry.matchesMsg p = true) (decides : f.entry.action ≠ .count)
    (first : ∀ j g, j < k → table[j]? = some g → g.entry.matchesMsg p = true → g.entry.action = .count) (i : Nat) :
    decidingEntry p i table = some (i + k, f.entry) := by
  induction table generalizing i k with
  | nil => simp at own
  | cons g t ih =>
    cases k with
    | zero =>
      obtain rfl : g = f := by simpa using own
      exact if_pos ⟨matched, decides⟩
    | succ k =>
      rw [decidingEntry, if_neg fun both => both.2 (first 0 g (Nat.succ_pos k) rfl both.1),
        ih (by simpa using own) (fun j x lt e => first (j + 1) x (by omega) (by simpa using e)) (i + 1)]
      congr 2
      omega

theorem filterAnswer_flags (p : MsgProps) (dflt : Decision) (table : List Filter) :
    (filterAnswer p dflt table).flags = flagUnion p table := by
  unfold filterAnswer
  split <;> rfl

/-- Settles O31. -/
theorem filterMatchesAndDecides : Obligations.FilterMatchesAndDecides := by
  refine ⟨fun e p => ?_, fun p dflt table a ha => ⟨fun f => rfl, fun n => ?_, fun counts => ?_,
    fun k f own matched decides first => ?_⟩⟩
  · simp only [FilterEntry.matchesMsg, Bool.and_eq_true, ByteTest.passes_iff, secondPasses_iff, AddressTest.passes_iff,
      ErrorClass.passes_iff, Origin.passes_iff, decide_eq_true_eq, QuadSet.has, and_assoc]
  · rw [ha, filterAnswer_flags, flagUnion_bit_iff]
  · rw [ha, filterAnswer, decidingEntry_eq_none counts]
    exact ⟨rfl, rfl, rfl⟩
  · rw [ha, filterAnswer, decidingEntry_eq_some own matched decides first, Nat.zero_add]
    refine ⟨rfl, fun drop => if_pos drop, fun record => ⟨if_neg ?_, if_neg ?_⟩⟩ <;> rw [record] <;> decide

end Sys2Proof.Machine

/-! PROOFS. SEQ_LOAD: a table read from its bytes, and R74's rules (R73 to R75, R135). -/

namespace Sys2Proof.Machine

/-! ### A table from its bytes (R73) -/

theorem parseTable_succ_eq_some {n : Nat} {p : List Byte} {table : List StepRecord} :
    parseTable (n + 1) p = some table ↔
      ∃ st rest, parseStep (p.take 12) = some st ∧ parseTable n (p.drop 12) = some rest ∧ st :: rest = table := by
  simp only [parseTable, Option.bind_eq_bind, Option.bind_eq_some_iff, Option.pure_def, Option.some.injEq,
    exists_and_left]

/-- The bytes of a later step are those of the step before it, past the first. -/
theorem drop_steps (k : Nat) (p : List Byte) : p.drop (12 * (k + 1)) = (p.drop 12).drop (12 * k) := by
  rw [List.drop_drop]
  congr 1
  omega

theorem parseTable_eq_some {n : Nat} {p : List Byte} {table : List StepRecord} :
    parseTable n p = some table ↔
      table.length = n ∧ ∀ k, k < n → parseStep ((p.drop (12 * k)).take 12) = table[k]? := by
  induction n generalizing p table with
  | zero => simp [parseTable, eq_comm]
  | succ n ih =>
    rw [parseTable_succ_eq_some]
    constructor
    · rintro ⟨st, rest, first, more, rfl⟩
      obtain ⟨length, steps⟩ := ih.1 more
      refine ⟨by rw [List.length_cons, length], fun k lt => ?_⟩
      cases k with
      | zero => simpa using first
      | succ k =>
        rw [drop_steps, steps k (by omega)]
        rfl
    · rintro ⟨length, steps⟩
      obtain ⟨st, rest, rfl⟩ := List.exists_cons_of_length_eq_add_one length
      refine ⟨st, rest, by simpa using steps 0 (Nat.succ_pos n), ih.2 ⟨by simpa using length, fun k lt => ?_⟩, rfl⟩
      rw [← drop_steps, steps (k + 1) (by omega)]
      rfl

theorem parseTable_eq_none {n : Nat} {p : List Byte} :
    parseTable n p = none ↔ ∃ k, k < n ∧ parseStep ((p.drop (12 * k)).take 12) = none := by
  induction n generalizing p with
  | zero => simp [parseTable]
  | succ n ih =>
    cases first : parseStep (p.take 12) with
    | none =>
      refine iff_of_true ?_ ⟨0, Nat.succ_pos n, by simpa using first⟩
      rw [parseTable, first]
      rfl
    | some st =>
      have more : parseTable (n + 1) p = none ↔ parseTable n (p.drop 12) = none := by
        rw [parseTable, first]
        cases parseTable n (p.drop 12) <;> simp
      rw [more, ih]
      constructor
      · rintro ⟨k, lt, bad⟩
        exact ⟨k + 1, by omega, by rwa [drop_steps]⟩
      · rintro ⟨k, lt, bad⟩
        cases k with
        | zero => simp [first] at bad
        | succ k => exact ⟨k, by omega, by rwa [drop_steps] at bad⟩

/-! ### Step records out of range (R135) -/

theorem ExitTarget.code_inside (t : ExitTarget) : ¬(16 ≤ t.code ∧ t.code < 0x40) ∧ ¬0x41 < t.code := by
  cases t with
  | step i => have := i.isLt; simp only [ExitTarget.code]; omega
  | fire => decide
  | ret => decide

theorem ExitTarget.ofCode_isSome {n : Nat} (low : ¬(16 ≤ n ∧ n < 0x40)) (high : ¬0x41 < n) :
    ∃ t, ExitTarget.ofCode n = some t := by
  rcases Nat.lt_or_ge n 16 with step | above
  · exact ⟨_, dif_pos step⟩
  · rcases (by omega : n = 0x40 ∨ n = 0x41) with rfl | rfl
    · exact ⟨.fire, rfl⟩
    · exact ⟨.ret, rfl⟩

theorem ActionTiming.ofCode_isSome {n : Nat} (h : n ≤ 2) : ∃ x, ActionTiming.ofCode n = some x :=
  Option.isSome_iff_exists.1 (by interval_cases n <;> rfl)

theorem guardOfByte_isSome {b : Byte} (h : ¬(4 ≤ b.toNat ∧ b ≠ 0xFF)) : ∃ g, guardOfByte b = some g :=
  Option.isSome_iff_exists.1 (by revert b; decide +kernel)

theorem byteOfGuard_inside (g : Option UnitId) : ¬(4 ≤ (byteOfGuard g).toNat ∧ byteOfGuard g ≠ 0xFF) := by
  revert g; decide

theorem byteOfGuard_eq_none_iff (g : Option UnitId) : byteOfGuard g = 0xFF ↔ g = none := by
  revert g; decide

/-- Action bytes that name no action (R135). -/
def noAction (action operand : Byte) : Prop :=
  8 < action.toNat ∨ (1 ≤ action.toNat ∧ action.toNat ≤ 3 ∧ 4 ≤ operand.toNat) ∨
    (4 ≤ action.toNat ∧ action.toNat ≤ 5 ∧ 8 ≤ operand.toNat) ∨ (action = 8 ∧ 8 ≤ operand.toNat)

theorem not_noAction_of_namedBy {action operand : Byte} {a : StepAction} (h : a.namedBy action operand) :
    ¬noAction action operand := by
  unfold noAction
  cases a with
  | none | pulse => obtain rfl := h; simp
  | mark v => obtain ⟨rfl, -⟩ := h; simp
  | startTimer u | stopTimer u | captureTimer u =>
    obtain ⟨rfl, operand⟩ := h
    have := u.isLt
    simp
    omega
  | setFlag f | clearFlag f | send f =>
    obtain ⟨rfl, operand⟩ := h
    have : f.val < 8 := f.isLt
    simp
    omega

theorem quadOfByte_isSome {b : Byte} (h : ¬4 ≤ b.toNat) : ∃ u, quadOfByte b = some u := ⟨_, dif_pos (by omega)⟩

theorem flagOfByte_isSome {b : Byte} (h : ¬8 ≤ b.toNat) : ∃ f, flagOfByte b = some f := ⟨_, dif_pos (by omega)⟩

theorem StepAction.ofCodes_isSome {action operand : Byte} (h : ¬noAction action operand) :
    ∃ a, StepAction.ofCodes action operand = some a := by
  simp only [noAction, not_or] at h
  obtain ⟨known, unit, flag, slot⟩ := h
  have unitOf : 1 ≤ action.toNat ∧ action.toNat ≤ 3 → ∃ u, quadOfByte operand = some u :=
    fun inside => quadOfByte_isSome fun above => unit ⟨inside.1, inside.2, above⟩
  have flagOf : 4 ≤ action.toNat ∧ action.toNat ≤ 5 → ∃ f, flagOfByte operand = some f :=
    fun inside => flagOfByte_isSome fun above => flag ⟨inside.1, inside.2, above⟩
  unfold StepAction.ofCodes
  split_ifs with h0 h1 h2 h3 h4 h5 h6 h7 h8
  · exact ⟨_, rfl⟩
  · obtain ⟨u, e⟩ := unitOf (by rw [h1]; decide); exact ⟨_, by rw [e]; rfl⟩
  · obtain ⟨u, e⟩ := unitOf (by rw [h2]; decide); exact ⟨_, by rw [e]; rfl⟩
  · obtain ⟨u, e⟩ := unitOf (by rw [h3]; decide); exact ⟨_, by rw [e]; rfl⟩
  · obtain ⟨f, e⟩ := flagOf (by rw [h4]; decide); exact ⟨_, by rw [e]; rfl⟩
  · obtain ⟨f, e⟩ := flagOf (by rw [h5]; decide); exact ⟨_, by rw [e]; rfl⟩
  · exact ⟨_, rfl⟩
  · exact ⟨_, rfl⟩
  · obtain ⟨c, e⟩ := flagOfByte_isSome fun above => slot ⟨h8, above⟩; exact ⟨_, by rw [e]; rfl⟩
  · bv_omega

theorem elseOf_isSome {g : Option UnitId} {els : Byte}
    (h : g = none ∨ (¬(16 ≤ els.toNat % 128 ∧ els.toNat % 128 < 0x40) ∧ ¬0x41 < els.toNat % 128)) :
    ∃ x, elseOf g els = some x := by
  cases g with
  | none => exact ⟨none, rfl⟩
  | some u =>
    obtain ⟨low, high⟩ := h.resolve_left (by simp)
    obtain ⟨t, e⟩ := ExitTarget.ofCode_isSome low high
    exact ⟨some t, by rw [elseOf, e]; rfl⟩

theorem parseStep_eq_none (mask opts n0 n1 guard exit els action operand z0 z1 z2 : Byte) :
    parseStep [mask, opts, n0, n1, guard, exit, els, action, operand, z0, z1, z2] = none ↔
      opts.toNat / 4 % 4 = 3 ∨ (4 ≤ guard.toNat ∧ guard ≠ 0xFF) ∨
        (16 ≤ exit.toNat % 128 ∧ exit.toNat % 128 < 0x40) ∨ 0x41 < exit.toNat % 128 ∨
        (guard ≠ 0xFF ∧ ((16 ≤ els.toNat % 128 ∧ els.toNat % 128 < 0x40) ∨ 0x41 < els.toNat % 128)) ∨
        noAction action operand := by
  have options : twoBits opts 2 = opts.toNat / 4 % 4 := (twoBits_values opts).2.1
  rw [← options]
  constructor
  · intro isNone
    by_contra inside
    simp only [not_or] at inside
    obtain ⟨h1, h2, h3, h4, h5, h6⟩ := inside
    obtain ⟨timing, e1⟩ := ActionTiming.ofCode_isSome (n := twoBits opts 2) (by rw [options] at h1 ⊢; omega)
    obtain ⟨g, e2⟩ := guardOfByte_isSome h2
    obtain ⟨target, e3⟩ := ExitTarget.ofCode_isSome h3 h4
    have other : g = none ∨ (¬(16 ≤ els.toNat % 128 ∧ els.toNat % 128 < 0x40) ∧ ¬0x41 < els.toNat % 128) := by
      rw [guardOfByte_eq_some.1 e2, ne_eq, byteOfGuard_eq_none_iff] at h5
      by_cases none : g = none
      · exact .inl none
      · exact .inr (not_or.1 fun outside => h5 ⟨none, outside⟩)
    obtain ⟨x, e4⟩ := elseOf_isSome other
    obtain ⟨act, e5⟩ := StepAction.ofCodes_isSome h6
    simp only [parseStep_eq, e1, e2, e3, e4, e5, Option.bind_some, reduceCtorEq] at isNone
  · intro outside
    by_contra isSome
    obtain ⟨st, h⟩ := Option.ne_none_iff_exists'.1 isSome
    obtain ⟨timing, rfl, target, other, act, -⟩ := (parseStep_eq_some _ _ _ _ _ _ _ _ _ _ _ _ st).1 h
    have timings : st.timing.code ≤ 2 := by cases st.timing <;> decide
    obtain ⟨low, high⟩ := st.matchTarget.code_inside
    rcases outside with h | h | h | h | ⟨guarded, h⟩ | h
    · omega
    · exact byteOfGuard_inside st.guard h
    · rw [target] at h; exact low h
    · rw [target] at h; exact high h
    · obtain ⟨t, -, code⟩ := (elseOf_eq_some.1 other).2 fun none => guarded ((byteOfGuard_eq_none_iff _).2 none)
      obtain ⟨low, high⟩ := t.code_inside
      rw [code] at h
      exact h.elim low high
    · exact not_noAction_of_namedBy (StepAction.namedBy_of_ofCodes act) h

/-! ### R74's rules -/

theorem ExitTarget.beyond_iff (loaded : Nat) (t : ExitTarget) :
    t.beyond loaded = true ↔ ∃ j, t = .step j ∧ loaded ≤ j.val := by
  cases t <;> simp [ExitTarget.beyond]

/-- The ELSE target of a guarded step lies beyond the table. -/
def elseBeyond (loaded : Nat) (st : StepRecord) : Bool :=
  match st.guard, st.elseTarget with
  | some _, some t => t.beyond loaded
  | _, _ => false

/-- The step's action starts or stops its own guard. -/
def actsOnGuard (st : StepRecord) : Bool :=
  match st.action with
  | .startTimer u => st.guard == some u
  | .stopTimer u => st.guard == some u
  | _ => false

theorem breaksRule_eq (loaded index : Nat) (st : StepRecord) :
    st.breaksRule loaded index =
      (st.mask == 0 || st.occurrences == 0 || st.matchTarget.beyond loaded || elseBeyond loaded st ||
        (st.matchKind == .call && index + 1 == loaded) || (st.timing == .onElse && st.guard.isNone) ||
        actsOnGuard st) := rfl

theorem elseBeyond_iff (loaded : Nat) (st : StepRecord) :
    elseBeyond loaded st = true ↔ st.guard ≠ none ∧ ∃ j, st.elseTarget = some (.step j) ∧ loaded ≤ j.val := by
  unfold elseBeyond
  cases st.guard with
  | none => simp
  | some u =>
    cases st.elseTarget with
    | none => simp
    | some t => simpa using t.beyond_iff loaded

theorem actsOnGuard_iff (st : StepRecord) :
    actsOnGuard st = true ↔ ∃ u, st.guard = some u ∧ (st.action = .startTimer u ∨ st.action = .stopTimer u) := by
  unfold actsOnGuard
  cases st.action <;> simp

theorem breaksRule_iff (loaded index : Nat) (st : StepRecord) : st.breaksRule loaded index = true ↔
    st.mask = 0 ∨ st.occurrences = 0 ∨ (∃ j, st.matchTarget = .step j ∧ loaded ≤ j.val) ∨
      (st.guard ≠ none ∧ ∃ j, st.elseTarget = some (.step j) ∧ loaded ≤ j.val) ∨
      (st.matchKind = .call ∧ index + 1 = loaded) ∨ (st.timing = .onElse ∧ st.guard = none) ∨
      (∃ u, st.guard = some u ∧ (st.action = .startTimer u ∨ st.action = .stopTimer u)) := by
  simp only [breaksRule_eq, Bool.or_eq_true, Bool.and_eq_true, beq_iff_eq, ExitTarget.beyond_iff, elseBeyond_iff,
    actsOnGuard_iff, Option.isNone_iff_eq_none, or_assoc]

theorem firstBreak_eq_none {loaded i : Nat} {table : List StepRecord} :
    firstBreak loaded i table = none ↔ ∀ (j : Nat) (st : StepRecord), table[j]? = some st → st.breaksRule loaded (i + j) = false := by
  induction table generalizing i with
  | nil => simp [firstBreak]
  | cons x t ih =>
    rw [firstBreak]
    constructor
    · intro h j st own
      split_ifs at h with bad
      cases j with
      | zero =>
        obtain rfl : x = st := by simpa using own
        exact Bool.eq_false_iff.2 bad
      | succ j =>
        have later := ih.1 h j st (by simpa using own)
        rwa [show i + 1 + j = i + (j + 1) by omega] at later
    · intro all
      have good : x.breaksRule loaded i = false := all 0 x rfl
      rw [if_neg (ne_true_of_eq_false good), ih]
      intro j st own
      rw [show i + 1 + j = i + (j + 1) by omega]
      exact all (j + 1) st (by simpa using own)

theorem firstBreak_eq_some {loaded i n : Nat} {table : List StepRecord} :
    firstBreak loaded i table = some n ↔
      i ≤ n ∧ (∃ st, table[n - i]? = some st ∧ st.breaksRule loaded n = true) ∧
        ∀ (j : Nat) (st : StepRecord), i + j < n → table[j]? = some st → st.breaksRule loaded (i + j) = false := by
  induction table generalizing i with
  | nil => simp [firstBreak]
  | cons x t ih =>
    rw [firstBreak]
    split_ifs with bad
    · constructor
      · intro h
        obtain rfl : i = n := by simpa using h
        exact ⟨le_refl i, ⟨x, by simp, bad⟩, fun j st lt => by omega⟩
      · rintro ⟨le, -, before⟩
        rcases Nat.eq_or_lt_of_le le with rfl | later
        · rfl
        · have good := before 0 x later rfl
          rw [Nat.add_zero, bad] at good
          cases good
    · rw [ih]
      constructor
      · rintro ⟨le, ⟨st, own, breaks⟩, before⟩
        refine ⟨by omega, ⟨st, by rwa [show n - i = n - (i + 1) + 1 by omega], breaks⟩, fun j y lt at_ => ?_⟩
        cases j with
        | zero =>
          obtain rfl : x = y := by simpa using at_
          exact Bool.eq_false_iff.2 bad
        | succ j =>
          have good := before j y (by omega) (by simpa using at_)
          rwa [show i + 1 + j = i + (j + 1) by omega] at good
      · rintro ⟨le, ⟨st, own, breaks⟩, before⟩
        rcases Nat.eq_or_lt_of_le le with rfl | later
        · obtain rfl : x = st := by simpa using own
          exact absurd breaks bad
        · refine ⟨later, ⟨st, by rwa [show n - i = n - (i + 1) + 1 by omega] at own, breaks⟩, fun j y lt at_ => ?_⟩
          rw [show i + 1 + j = i + (j + 1) by omega]
          exact before (j + 1) y (by omega) (by simpa using at_)

/-! ### SEQ_LOAD (R73 to R75) -/

section
variable {s : State} {bytes : List Byte}

theorem seqLoad_of_bad (idle : s.seq.state ≠ .armed) (bad : parseTable (bytes.length / 12) bytes = none) :
    seqLoad s bytes = .refuse s .range := by
  simp only [seqLoad, if_neg idle, bad]

theorem seqLoad_of_break {table : List StepRecord} {k : Nat} (idle : s.seq.state ≠ .armed)
    (read : parseTable (bytes.length / 12) bytes = some table)
    (breaks : firstBreak (bytes.length / 12) 0 table = some k) :
    seqLoad s bytes = ⟨s, .rule, [BitVec.ofNat 8 k]⟩ := by
  simp only [seqLoad, if_neg idle, read, breaks]

theorem seqLoad_of_sound {table : List StepRecord} (idle : s.seq.state ≠ .armed)
    (read : parseTable (bytes.length / 12) bytes = some table)
    (sound : firstBreak (bytes.length / 12) 0 table = none) :
    seqLoad s bytes = .ok (s.setSeq { s.seq with table := table, state := .idle, cause := .none }) [] := by
  simp only [seqLoad, if_neg idle, read, sound]

end

/-- Settles O32. -/
theorem seqLoadReplacesTheTable : Obligations.SeqLoadReplacesTheTable := by
  refine ⟨fun n p => ⟨parseTable_eq_none, fun table => parseTable_eq_some⟩, parseStep_eq_none, breaksRule_iff,
    fun loaded table => ⟨?_, fun k => ?_⟩,
    fun tag p s s1 admitted hTaken => ⟨fun armed => ?_, fun idle bad => ?_, fun table idle read => ⟨fun k breaks => ?_,
      fun sound => ?_⟩⟩⟩
  · simpa using firstBreak_eq_none (loaded := loaded) (i := 0) (table := table)
  · simpa using firstBreak_eq_some (loaded := loaded) (i := 0) (n := k) (table := table)
  · exact exec_refuse hTaken admitted (if_pos armed)
  · exact exec_range hTaken admitted (seqLoad_of_bad idle bad)
  · exact congrArg Host.Outcome.next (serve_unchanged hTaken admitted (seqLoad_of_break idle read breaks))
  · exact exec_ok hTaken admitted (seqLoad_of_sound idle read sound) rfl

end Sys2Proof.Machine

/-! PROOFS. The sequencer: events taken, actions performed, exits and step entry (R77, R79, R81 to R92). -/

namespace Sys2Proof.Machine

/-! ### An event arrives (R79, R89) -/

theorem State.joinQueue_of_full_idle {s : State} (full : 16 ≤ s.seq.queue.length) (idle : s.seq.state ≠ .armed)
    (e : SeqEvent) :
    s.joinQueue e =
      { s with stats := { s.stats with eventsLost := satInc 0xFFFFFFFF s.stats.eventsLost } } := by
  have noPlace : ¬s.seq.queue.length < Config.eventPlaces := Nat.not_lt.mpr full
  simp only [State.joinQueue, if_neg noPlace, if_neg idle]
  rfl

/-! ### An event is taken (R79, R81 to R83) -/

/-- The event taken off the queue, and counted. -/
def State.dequeued (s : State) (rest : List SeqEvent) : State :=
  (s.setSeq { s.seq with queue := rest }).countTaken

section
variable {s : State} {e : SeqEvent} {rest : List SeqEvent} {st : StepRecord}

theorem State.takeEvent_of_idle (h : s.seq.queue = e :: rest) (idle : s.seq.state ≠ .armed) :
    s.takeEvent = s.dequeued rest := by
  simp only [State.takeEvent, h, if_neg idle]
  rfl

theorem State.takeEvent_of_armed (h : s.seq.queue = e :: rest) (armed : s.seq.state = .armed) :
    s.takeEvent = (s.dequeued rest).judgeEvent e := by
  simp only [State.takeEvent, h, if_pos armed]
  rfl

theorem State.judgeEvent_of_expiry (step : s.seq.step? = some st) (h : isGuardExpiry st s.seq.guardGen e = true) :
    s.judgeEvent e = s.guardExpiry st e := by
  simp only [State.judgeEvent, step, if_pos h]

theorem State.judgeEvent_of_flags (step : s.seq.step? = some st) (h : isGuardExpiry st s.seq.guardGen e = false) :
    s.judgeEvent e = s.flagEvent st e := by
  simp only [State.judgeEvent, step, if_neg (ne_true_of_eq_false h)]

end

theorem isGuardExpiry_iff (st : StepRecord) (gen : Byte) (e : SeqEvent) :
    isGuardExpiry st gen e = true ↔ ∃ u f, st.guard = some u ∧ e = .timer u f gen := by
  cases e with
  | timer u f g =>
    simp only [isGuardExpiry, Bool.and_eq_true, beq_iff_eq, SeqEvent.timer.injEq]
    constructor
    · rintro ⟨guard, rfl⟩
      exact ⟨u, f, guard, rfl, rfl, rfl⟩
    · rintro ⟨_, _, guard, rfl, rfl, rfl⟩
      exact ⟨guard, rfl⟩
  | message i m => simp [isGuardExpiry]
  | input p f => simp [isGuardExpiry]
  | host a b => simp [isGuardExpiry]

theorem condHolds_iff (st : StepRecord) (flags : FlagSet) :
    condHolds st flags = true ↔
      (st.sense = .any ∧ flags &&& st.mask ≠ 0) ∨ (st.sense = .all ∧ flags &&& st.mask = st.mask) := by
  unfold condHolds
  cases st.sense <;> simp

theorem qualifies_iff (st : StepRecord) (e : SeqEvent) (flags : FlagSet) :
    qualifies st e flags = true ↔ e.toSet &&& st.mask ≠ 0 ∧
      ((st.sense = .any ∧ flags &&& st.mask ≠ 0) ∨ (st.sense = .all ∧ flags &&& st.mask = st.mask)) := by
  rw [qualifies, Bool.and_eq_true, bne_iff_ne, condHolds_iff]

section
variable {s : State} {st : StepRecord} {e : SeqEvent} {flags : FlagSet}

theorem State.flagEvent_of_unqualified (h : flags = applyFlags s.seq.flags e.toSet e.toClear)
    (no : qualifies st e flags = false) : s.flagEvent st e = s.setSeq { s.seq with flags := flags } := by
  subst h
  exact if_neg (ne_true_of_eq_false no)

theorem State.flagEvent_of_qualified (h : flags = applyFlags s.seq.flags e.toSet e.toClear)
    (qualified : qualifies st e flags = true) :
    s.flagEvent st e = (s.setSeq { s.seq with flags := flags }).advanceStep st := by
  subst h
  exact if_pos qualified

theorem State.advanceStep_of_more {n : Nat} (h : n = satInc 65535 s.seq.occurrence) (more : n ≠ st.occurrences) :
    s.advanceStep st = (s.setSeq { s.seq with occurrence := n }).actionAt st .each := by
  subst h
  exact if_neg more

theorem State.advanceStep_of_last {n : Nat} (h : n = satInc 65535 s.seq.occurrence) (last : n = st.occurrences) :
    s.advanceStep st =
      ((((s.setSeq { s.seq with occurrence := n }).actionAt st .each).actionAt st .exit).consume st).matchExit st := by
  subst h
  exact if_pos last

theorem State.consume_eq (s : State) (st : StepRecord) :
    s.consume st =
      { s with seq := { s.seq with
          flags := if st.consume then s.seq.flags &&& ~~~st.mask else s.seq.flags } } := by
  unfold State.consume
  cases st.consume <;> rfl

end

/-- Settles O36. -/
theorem eventIsTaken : Obligations.EventIsTaken := by
  refine ⟨⟨fun f => rfl, rfl, fun i m => ⟨rfl, rfl⟩, fun u g => ⟨rfl, rfl, fun f => ⟨rfl, rfl⟩⟩,
      fun p f => ⟨rfl, rfl⟩, fun a b => ⟨rfl, rfl⟩⟩,
    fun s l g e hl hg => ⟨fun place => State.joinQueue_of_place place e, fun full idle => ?_, fun full armed => ?_⟩,
    fun s t e rest queue ht => ⟨fun idle => ?_, fun st armed step => ?_⟩⟩
  · exact (State.joinQueue_of_full_idle full idle e).trans hl.symm
  · rw [State.joinQueue_of_full_armed full armed]
    subst hl hg
    cases guard : s.seq.step?.bind (·.guard) with
    | none => rw [State.stopGuard_of_none guard]
    | some u => rw [State.stopGuard_of_some guard]; rfl
  · exact congrArg Host.Outcome.next ((State.takeEvent_of_idle queue idle).trans ht.symm)
  · have dequeued : s.dequeued rest = t := ht.symm
    have taken : exec .eventTaken s = .next (t.judgeEvent e) :=
      congrArg Host.Outcome.next ((State.takeEvent_of_armed queue armed).trans (by rw [dequeued]))
    have here : t.seq.step? = some st := by rw [ht]; exact step
    have gen : t.seq.guardGen = s.seq.guardGen := by rw [ht]
    have before : t.seq.flags = s.seq.flags := by rw [ht]
    have counted : t.seq.occurrence = s.seq.occurrence := by rw [ht]
    rw [taken]
    refine ⟨fun u f guard expiry => ?_, fun other flags hflags => ?_⟩
    · have own : isGuardExpiry st t.seq.guardGen e = true := by
        rw [gen, isGuardExpiry_iff]
        exact ⟨u, f, guard, expiry⟩
      rw [State.judgeEvent_of_expiry here own, State.guardExpiry, before, expiry]
      rfl
    · have noExpiry : isGuardExpiry st t.seq.guardGen e = false := by
        rw [gen, Bool.eq_false_iff, ne_eq, isGuardExpiry_iff]
        rintro ⟨u, f, guard, expiry⟩
        exact other u f guard expiry
      have applied : flags = applyFlags t.seq.flags e.toSet e.toClear := by rw [before]; exact hflags
      rw [State.judgeEvent_of_flags here noExpiry]
      refine ⟨fun unqualified => ?_, fun sets holds below n hn => ?_⟩
      · rw [State.flagEvent_of_unqualified applied]
        · rfl
        · rw [Bool.eq_false_iff, ne_eq, qualifies_iff]
          rintro ⟨sets, ⟨any, some⟩ | ⟨all, whole⟩⟩
          · rcases unqualified with h | ⟨-, h⟩ | ⟨h, -⟩
            · exact sets h
            · exact some h
            · rw [any] at h; cases h
          · rcases unqualified with h | ⟨h, -⟩ | ⟨-, h⟩
            · exact sets h
            · rw [all] at h; cases h
            · exact h whole
      · have rises : s.seq.occurrence + 1 = satInc 65535 (t.setSeq { t.seq with flags := flags }).seq.occurrence := by
          rw [State.setSeq_seq, counted, (satInc_cases _ _).1 below]
        have advanced : n = (t.setSeq { t.seq with flags := flags }).setSeq
            { (t.setSeq { t.seq with flags := flags }).seq with occurrence := s.seq.occurrence + 1 } := hn
        rw [State.flagEvent_of_qualified applied ((qualifies_iff ..).2 ⟨sets, holds⟩)]
        refine ⟨fun more => ?_, fun last x hx => ?_⟩
        · rw [State.advanceStep_of_more rises more, advanced]
        · rw [State.advanceStep_of_last rises last, ← advanced, ← hx, State.consume_eq]

/-! ### Actions (R90 to R92) -/

theorem State.actionAt_of_other {s : State} {st : StepRecord} {t : ActionTiming} (h : st.timing ≠ t) :
    s.actionAt st t = s := if_neg h

theorem State.actionAt_of_own {s : State} {st : StepRecord} {t : ActionTiming} (h : st.timing = t) :
    s.actionAt st t = s.performAction st.action := if_pos h

theorem TrigOut.pulseRequest_of_held {o : TrigOut} (h : o.held = true) : o.pulseRequest = o := if_pos h

theorem TrigOut.pulseRequest_of_free {o : TrigOut} (h : o.held = false) :
    o.pulseRequest = { o with pulse := some o.width } := if_neg (ne_true_of_eq_false h)

theorem Line.canSend_iff (l : Line) :
    l.canSend = true ↔ l.rx.state ≠ .off ∧ l.rx.stopPending = false ∧ l.cfg.txPermitted = true := by
  simp [Line.canSend, and_assoc]

/-- Settles O37. -/
theorem actionsArePerformed : Obligations.ActionsArePerformed := by
  refine fun s st t => ⟨State.actionAt_of_other, fun own => ?_⟩
  rw [State.actionAt_of_own own]
  refine ⟨fun h => ?_, fun u h => ?_, fun u h => ?_, fun u h => ?_, fun f h => ?_, fun f h => ?_, fun v h => ?_,
    fun h => ⟨fun held => ?_, fun free => ?_⟩, fun c h => ⟨fun none => ?_, fun cm l some hl => ⟨fun drop => ?_,
      fun on free permitted room => ?_⟩⟩⟩ <;> rw [h]
  iterate 7 rfl
  · rw [State.performAction, TrigOut.pulseRequest_of_held held]
    rfl
  · rw [State.performAction, TrigOut.pulseRequest_of_free free]
    rfl
  · exact State.sendCanned_of_empty none
  · refine State.sendCanned_of_dropped some ?_
    subst hl
    rw [Bool.eq_false_iff, ne_eq, Line.canSend_iff]
    rcases drop with off | stopping | forbidden | full
    · exact .inl fun may => may.1 off
    · exact .inl fun may => absurd (stopping.symm.trans may.2.1) (by simp)
    · exact .inl fun may => absurd (forbidden.symm.trans may.2.2) (by simp)
    · exact .inr full
  · subst hl
    exact State.sendCanned_of_room some ((Line.canSend_iff _).2 ⟨on, free, permitted⟩) room

/-! ### Exits and step entry (R77, R84, R89) -/

theorem State.stopGuard_of_step (s : State) (st : StepRecord) :
    s.stopGuard (some st) =
      match st.guard with
      | none => s
      | some u => s.setTimer u { s.timer u with state := .idle } := by
  cases guard : st.guard with
  | none => exact State.stopGuard_of_none guard
  | some u => exact State.stopGuard_of_some guard

theorem State.goTarget_of_no_link {s : State} (h : s.seq.link = none) (c : FireCause) :
    s.goTarget .ret c = s.seqFault .emptyReturn := by
  simp only [State.goTarget, h]

/-- Settles O38. -/
theorem exitsAndStepEntry : Obligations.ExitsAndStepEntry := by
  refine ⟨fun s g st hg => ⟨fun go => ?_, fun call => ?_, fun target els => ?_⟩,
    fun s c => ⟨fun i => rfl, rfl, fun r link => ?_, fun noLink => ?_⟩,
    fun s i st own => ⟨fun none => ?_, fun u some => ?_⟩⟩
  · have stopped : s.stopGuard (some st) = g := (State.stopGuard_of_step s st).trans hg.symm
    simp only [State.matchExit, stopped, go]
  · have stopped : s.stopGuard (some st) = g := (State.stopGuard_of_step s st).trans hg.symm
    have current : g.seq.current = s.seq.current := by rw [← stopped, State.stopGuard_seq]
    simp only [State.matchExit, stopped, call, current]
    rfl
  · have stopped : s.stopGuard (some st) = g := (State.stopGuard_of_step s st).trans hg.symm
    simp only [State.elseExit, stopped, els]
  · simp only [State.goTarget, link]
    rfl
  · exact State.goTarget_of_no_link noLink c
  · exact State.enterStep_of_none (by rw [own]; exact none)
  · exact State.enterStep_of_some (by rw [own]; exact some)

end Sys2Proof.Machine

/-! PROOFS. The transmit units: outcomes, taking the line, the end of a character, deadlines and holds (R153 to R160). -/

namespace Sys2Proof.Machine

/-! ### An outcome (R132, R141, R160) -/

/-- The unit once its oldest transmission has ended with an outcome. -/
def TxUnit.ended (u : TxUnit) (o : TxOutcome) : TxUnit := { u.dropOldest with lastOutcome := some o }

theorem State.endTx_of_last {s : State} {i : LineId} (h : (s.line i).tx.queue.tail = []) (o : TxOutcome) :
    s.endTx i o = ((s.setTx i ((s.line i).tx.ended o)).report i fun g => g.txOutcome o).raise
      { kind := .txEmpty i, payload := [quadByte i, o.code] } :=
  if_pos (List.isEmpty_iff.2 h)

theorem State.endTx_of_more {s : State} {i : LineId} (h : (s.line i).tx.queue.tail ≠ []) (o : TxOutcome) :
    s.endTx i o = (s.setTx i ((s.line i).tx.ended o)).report i fun g => g.txOutcome o :=
  if_neg (fun empty => h (List.isEmpty_iff.1 empty))

theorem State.endTx_line_same (s : State) (i : LineId) (o : TxOutcome) :
    (s.endTx i o).line i = { s.line i with tx := (s.line i).tx.ended o } := by
  by_cases h : (s.line i).tx.queue.tail = []
  · rw [State.endTx_of_last h]; simp
  · rw [State.endTx_of_more h]; simp

theorem State.endTx_line_other (s : State) {i j : LineId} (h : j ≠ i) (o : TxOutcome) :
    (s.endTx i o).line j = s.line j := by
  by_cases last : (s.line i).tx.queue.tail = []
  · rw [State.endTx_of_last last, State.line_raise, State.line_report, State.line_setTx_other _ _ _ _ h.symm]
  · rw [State.endTx_of_more last, State.line_report, State.line_setTx_other _ _ _ _ h.symm]

theorem State.endTx_stats (s : State) (i : LineId) (o : TxOutcome) :
    (s.endTx i o).stats = ((s.setTx i ((s.line i).tx.ended o)).report i fun g => g.txOutcome o).stats := by
  by_cases h : (s.line i).tx.queue.tail = []
  · rw [State.endTx_of_last h]; rfl
  · rw [State.endTx_of_more h]

theorem State.endTx_link (s : State) (i : LineId) (o : TxOutcome) :
    (s.endTx i o).link = if (s.line i).tx.queue.tail = [] then
        s.link.raise { kind := .txEmpty i, payload := [quadByte i, o.code] }
      else s.link := by
  split_ifs with h
  · rw [State.endTx_of_last h]; rfl
  · rw [State.endTx_of_more h]; rfl

/-- Settles O47. -/
theorem outcomeEndsATransmission : Obligations.OutcomeEndsATransmission := by
  intro s t i o ht
  have line : t.line i = { s.line i with tx := (s.line i).tx.ended o } := by rw [ht, State.endTx_line_same]
  have stats : t.stats = ((s.setTx i ((s.line i).tx.ended o)).report i fun g => g.txOutcome o).stats := by
    rw [ht, State.endTx_stats]
  have kept := State.endTx_keeps s i o
  rw [← ht] at kept
  refine ⟨by rw [line]; rfl, by rw [line]; rfl, ?_, ?_, ?_, by rw [line], by rw [line], by rw [line], by rw [kept],
    by rw [kept], by rw [kept], fun j other => ⟨by rw [ht, State.endTx_line_other s other], ?_⟩⟩
  · rw [line]
    simp [TxUnit.ended, TxUnit.dropOldest]
  · have own : t.lineStats i = (s.lineStats i).txOutcome o := by
      simp only [State.lineStats, stats]
      exact State.lineStats_setLineStats_same (s.setTx i ((s.line i).tx.ended o)) i _
    rw [own]
    cases o <;> rfl
  · rw [ht, State.endTx_link]
    cases o <;> rfl
  · simp only [State.lineStats, stats]
    exact State.lineStats_setLineStats_other (s.setTx i ((s.line i).tx.ended o)) i j _ other.symm

/-! ### Deadlines and holds (R157, R159) -/

theorem holdEnd_of_hold {s : State} {i : LineId} (h : (s.line i).tx.state = .hold) : holdEnd s i = judgeHold s i :=
  if_pos h

theorem echoDeadline_of_due {s : State} {i : LineId} (h : (s.line i).tx.deadlineDue = true) :
    echoDeadline s i = foundCollision s i := if_pos h

theorem TxUnit.deadlineDue_of_data {u : TxUnit} (judging : u.judging = true) (data : u.state = .data)
    (two : 2 ≤ u.awaited.length) : u.deadlineDue = true := by
  simp [TxUnit.deadlineDue, judging, data, two]

theorem TxUnit.deadlineDue_of_hold {u : TxUnit} (judging : u.judging = true) (hold : u.state = .hold)
    (some : u.awaited ≠ []) : u.deadlineDue = true := by
  simp [TxUnit.deadlineDue, judging, hold, some]

/-- Settles O50. -/
theorem deadlinesAndHolds : Obligations.DeadlinesAndHolds := by
  rintro i s c u rfl fresh whole hc
  have found : s.setLine i (s.line i).collided = c := hc.symm
  refine ⟨fun hold none => ?_, fun hold some => ⟨?_, ?_⟩, fun data two => ?_⟩
  · exact congrArg Host.Outcome.next ((holdEnd_of_hold hold).trans (judgeHold_of_none none))
  · exact congrArg Host.Outcome.next (((holdEnd_of_hold hold).trans (judgeHold_of_some some)).trans
      ((foundCollision_of_hold hold).trans (by rw [found])))
  · have due := TxUnit.deadlineDue_of_hold ((TxUnit.judging_iff _).2 ⟨.inr hold, fresh, whole⟩) hold some
    exact congrArg Host.Outcome.next ((echoDeadline_of_due due).trans
      ((foundCollision_of_hold hold).trans (by rw [found])))
  · have due := TxUnit.deadlineDue_of_data ((TxUnit.judging_iff _).2 ⟨.inl data, fresh, whole⟩) data two
    exact congrArg Host.Outcome.next ((echoDeadline_of_due due).trans
      ((foundCollision_of_not_hold (by rw [data]; decide)).trans found))

/-! ### The next character on the pin (R156, R157) -/

section
variable {u : TxUnit} {t : Transmission} {rest : List Transmission} (c : LineSettings)

/-- The unit with its next byte on the pin. -/
def TxUnit.sending (u : TxUnit) (c : LineSettings) (b : Byte) (addr : Bool) : TxUnit :=
  { u with
    state := .data, sent := u.sent + 1
    onPin := some { data := b, slots := sentSlots c b (ninthBit c.format b addr), divisor := c.divisor
                    sense := c.sense }
    awaited := u.awaited ++ [{ data := b, ninth := ninthBit c.format b addr, deadline := charTime c }] }

theorem TxUnit.beginNext_of_byte {b : Byte} (queue : u.queue = t :: rest) (next : t.data[u.sent]? = some b)
    (fresh : u.collided = false) : u.beginNext c = u.sending c b (addrFor t u.sent) := by
  have head : u.queue.head? = some t := by rw [queue]; rfl
  simp only [TxUnit.beginNext, head, next, fresh, Bool.false_eq_true, if_false, TxUnit.sending]

theorem TxUnit.beginNext_of_end (queue : u.queue = t :: rest) (done : t.data.length ≤ u.sent) :
    u.beginNext c = { u with state := .hold, onPin := none } := by
  have head : u.queue.head? = some t := by rw [queue]; rfl
  have none : t.data[u.sent]? = none := List.getElem?_eq_none done
  simp only [TxUnit.beginNext, head, none]

theorem TxUnit.afterPreamble_of_break (queue : u.queue = t :: rest) (brk : t.brk ≠ 0) :
    u.afterPreamble c = { u with state := .brk } := by
  have head : u.queue.head? = some t := by rw [queue]; rfl
  simp only [TxUnit.afterPreamble, head, if_pos brk]

theorem TxUnit.afterPreamble_of_none (queue : u.queue = t :: rest) (brk : t.brk = 0) :
    u.afterPreamble c = u.beginNext c := by
  have head : u.queue.head? = some t := by rw [queue]; rfl
  simp only [TxUnit.afterPreamble, head, brk, ne_eq, not_true_eq_false, if_false]

theorem TxUnit.take_of_preamble (queue : u.queue = t :: rest) (preamble : t.preamble ≠ 0) :
    u.take c = { u with state := .preamble } := by
  have head : u.queue.head? = some t := by rw [queue]; rfl
  simp only [TxUnit.take, head, if_pos preamble]

theorem TxUnit.take_of_none (queue : u.queue = t :: rest) (preamble : t.preamble = 0) :
    u.take c = u.afterPreamble c := by
  have head : u.queue.head? = some t := by rw [queue]; rfl
  simp only [TxUnit.take, head, preamble, ne_eq, not_true_eq_false, if_false]

end

/-! ### The end of a character on the pin (R156 to R158, R161 to R163) -/

section
variable {s : State} {i : LineId}

theorem txCharacterEnd_of_reset (data : (s.line i).tx.state = .data) (cut : (s.line i).tx.cut = .reset) :
    txCharacterEnd s i = s.setTx i (s.line i).tx.dropOldest := by
  simp only [txCharacterEnd, data, if_true, cut]

theorem txCharacterEnd_of_flushed (data : (s.line i).tx.state = .data) (cut : (s.line i).tx.cut = .flushed) :
    txCharacterEnd s i = s.endTx i (if (s.line i).tx.collided then .collision else .aborted) := by
  simp only [txCharacterEnd, data, if_true, cut]

theorem txCharacterEnd_of_collided (data : (s.line i).tx.state = .data) (cut : (s.line i).tx.cut = .none)
    (collided : (s.line i).tx.collided = true) : txCharacterEnd s i = s.endTx i .collision := by
  simp only [txCharacterEnd, data, if_true, cut, collided]

theorem txCharacterEnd_of_few (data : (s.line i).tx.state = .data) (cut : (s.line i).tx.cut = .none)
    (fresh : (s.line i).tx.collided = false) (few : (s.line i).tx.awaited.length ≤ 1) :
    txCharacterEnd s i = s.setTx i ((s.line i).tx.beginNext (s.line i).cfg) := by
  have noDeadline : (s.line i).tx.deadlineNow = false := by
    simp only [TxUnit.deadlineNow, Bool.and_eq_false_iff, decide_eq_false_iff_not]
    omega
  simp only [txCharacterEnd, data, if_true, cut, fresh, noDeadline, Bool.false_eq_true, if_false]

theorem txCharacterEnd_of_two (data : (s.line i).tx.state = .data) (cut : (s.line i).tx.cut = .none)
    (fresh : (s.line i).tx.collided = false) (two : 2 ≤ (s.line i).tx.awaited.length) :
    txCharacterEnd s i = foundCollision (s.setTx i ((s.line i).tx.beginNext (s.line i).cfg)) i := by
  have deadline : (s.line i).tx.deadlineNow = true := by
    have judging := (TxUnit.judging_iff (s.line i).tx).2 ⟨.inl data, fresh, cut⟩
    simp [TxUnit.deadlineNow, judging, two]
  simp only [txCharacterEnd, data, if_true, cut, fresh, deadline, Bool.false_eq_true, if_false]

/-- A collision found in a unit just set. -/
theorem setTx_collided (s : State) (i : LineId) (u : TxUnit) :
    (s.setTx i u).setLine i ((s.setTx i u).line i).collided =
      s.setLine i { s.line i with
        msg := (s.line i).msg.map Message.withColl, tx := { u with collided := true, awaited := [] } } := by
  simp [State.setTx, Line.collided]

end

/-- Settles O49. -/
theorem characterEndsOnThePin : Obligations.CharacterEndsOnThePin := by
  rintro i s t rest u m rfl data queue rfl
  refine ⟨fun whole fresh => ⟨fun b next byte later hnext => ?_, fun done => ?_⟩, fun whole collided => ?_,
    fun flushed => ?_, fun reset => ?_⟩
  · have addr : addrFor t (s.line i).tx.sent = false := by
      simp only [addrFor, Bool.and_eq_false_iff, beq_eq_false_iff_ne]
      omega
    have begun : (s.line i).tx.beginNext (s.line i).cfg = next := by
      rw [TxUnit.beginNext_of_byte _ queue byte fresh, addr, hnext, TxUnit.sending, data]
    have sends : next.state ≠ .hold := by
      rw [hnext]
      simp [data]
    refine ⟨fun few => ?_, fun two => ?_⟩
    · exact congrArg Host.Outcome.next ((txCharacterEnd_of_few data whole fresh few).trans (by rw [begun]))
    · refine congrArg Host.Outcome.next ((txCharacterEnd_of_two data whole fresh two).trans ?_)
      rw [begun, foundCollision_of_not_hold (by simpa using sends), setTx_collided]
      rfl
  · have begun := TxUnit.beginNext_of_end (s.line i).cfg queue done
    refine ⟨fun few => ?_, fun two => ?_⟩
    · exact congrArg Host.Outcome.next ((txCharacterEnd_of_few data whole fresh few).trans (by rw [begun]))
    · refine congrArg Host.Outcome.next ((txCharacterEnd_of_two data whole fresh two).trans ?_)
      rw [begun, foundCollision_of_hold (by simp), setTx_collided]
      rfl
  · exact congrArg Host.Outcome.next (txCharacterEnd_of_collided data whole collided)
  · exact congrArg Host.Outcome.next (txCharacterEnd_of_flushed data flushed)
  · refine congrArg Host.Outcome.next ((txCharacterEnd_of_reset data reset).trans ?_)
    rw [TxUnit.dropOldest, queue]
    cases rest <;> rfl

/-! ### What a unit drives (R3, R153 to R156, R159) -/

theorem Sense.apply_drive (x : Sense) (l : Level) : x.apply (x.drive l) = l := by
  cases x <;> cases l <;> rfl

theorem Sense.drive_eq_high_iff (x : Sense) (l : Level) :
    x.drive l = .high ↔ (x = .normal ∧ l = .mark) ∨ (x = .inverted ∧ l = .space) := by
  cases x <;> cases l <;> decide

theorem TxUnit.pinSense_eq (c : LineSettings) (u : TxUnit) :
    u.pinSense c = match u.state, u.onPin with
      | .data, some p => p.sense
      | _, _ => c.sense := by
  unfold TxUnit.pinSense
  cases u.state <;> cases u.onPin <;> rfl

theorem markCount_levelsOfByte (b : Byte) :
    markCount (levelsOfByte b) = ((List.range 8).filter b.getLsbD).length := by
  revert b; decide +kernel

theorem levelsOfByte_eq (b : Byte) :
    levelsOfByte b = (List.range 8).map (fun k => if b.getLsbD k then Level.mark else .space) := rfl

theorem levelOfBit_beq (a b : Nat) : levelOfBit (a == b) = if a = b then .mark else .space := by
  by_cases h : a = b
  · rw [if_pos h, h, beq_self_eq_true]; rfl
  · rw [if_neg h, beq_eq_false_iff_ne.2 h]; rfl

theorem Line.mayTake_iff (l : Line) : l.mayTake = true ↔
    l.tx.state = .wait ∧ l.rx.state = .hunt ∧ l.rx.startPending = false ∧ l.rx.awaitingMark = false ∧
      l.cfg.accessGap ≤ l.rx.idle ∧ (l.cfg.mode = .address ∨ l.msg = none) := by
  simp [Line.mayTake, Receiver.offersAccess, and_assoc]

theorem takeLine_of_may {s : State} {i : LineId} (h : (s.line i).mayTake = true) :
    takeLine s i = s.setTx i ((s.line i).tx.take (s.line i).cfg) := if_pos h

theorem takeLine_of_not {s : State} {i : LineId} (h : ¬(s.line i).mayTake = true) : takeLine s i = s := if_neg h

/-- Settles O48. -/
theorem transmissionTakesTheLine : Obligations.TransmissionTakesTheLine := by
  refine ⟨fun c u => ⟨fun n => ?_, fun released => ?_, fun t rest queue => ⟨fun preamble => ?_, fun brk => ?_⟩,
      fun p data pin => ?_, fun hold => ?_⟩,
    fun x l => ⟨x.apply_drive l, x.drive_eq_high_iff l⟩, fun b addr ones hones => ?_,
    fun c b ninth bits hbits => ?_,
    fun i s t rest b data u first ninth hu queue bytes sent fresh hninth hfirst =>
      ⟨fun wait hunt free seen access closed => ⟨fun preamble => ?_, fun none brk => ?_, fun none noBrk => ?_⟩,
        fun not => ?_, fun preamble => ⟨fun brk => ?_, fun noBrk => ?_⟩, fun brk => ?_⟩⟩
  · exact congrArg (fun x : Sense => x.drive ((u.bitLevels c)[n]?.getD .mark)) (TxUnit.pinSense_eq c u)
  · rcases released with h | h <;> simp [TxUnit.bitLevels, TxState.driving, h]
  · simp [TxUnit.bitLevels, TxState.driving, preamble, queue]
  · simp [TxUnit.bitLevels, TxState.driving, brk, queue]
  · simp [TxUnit.bitLevels, TxState.driving, data, pin]
  · simp [TxUnit.bitLevels, TxState.driving, hold]
  · rw [hones, ← markCount_levelsOfByte]
    exact ⟨rfl, congrArg some (levelOfBit_beq _ _), congrArg some (levelOfBit_beq _ _), rfl⟩
  · rw [hbits, ← levelsOfByte_eq, sentSlots]
    cases c.bitOrder <;> cases ninth <;> cases c.stopBits <;> rfl
  all_goals
    subst hu
    have addr : addrFor t (s.line i).tx.sent = t.addrFirst := by simp [addrFor, sent]
    have begun : (s.line i).tx.beginNext (s.line i).cfg = first := by
      rw [TxUnit.beginNext_of_byte (b := b) _ queue (by rw [bytes, sent]; rfl) fresh, addr, hfirst, hninth,
        TxUnit.sending, sent]
  · have may := (Line.mayTake_iff _).2 ⟨wait, hunt, free, seen, access, closed⟩
    exact congrArg Host.Outcome.next ((takeLine_of_may may).trans (by rw [TxUnit.take_of_preamble _ queue preamble]))
  · have may := (Line.mayTake_iff _).2 ⟨wait, hunt, free, seen, access, closed⟩
    exact congrArg Host.Outcome.next ((takeLine_of_may may).trans
      (by rw [TxUnit.take_of_none _ queue none, TxUnit.afterPreamble_of_break _ queue brk]))
  · have may := (Line.mayTake_iff _).2 ⟨wait, hunt, free, seen, access, closed⟩
    exact congrArg Host.Outcome.next ((takeLine_of_may may).trans
      (by rw [TxUnit.take_of_none _ queue none, TxUnit.afterPreamble_of_none _ queue noBrk, begun]))
  · refine congrArg Host.Outcome.next (takeLine_of_not fun may => ?_)
    obtain ⟨wait, hunt, free, seen, access, closed⟩ := (Line.mayTake_iff _).1 may
    rcases not with h | h | h | h | h | ⟨mode, message⟩
    · exact h wait
    · exact h hunt
    · exact absurd (h.symm.trans free) (by simp)
    · exact absurd (h.symm.trans seen) (by simp)
    · omega
    · exact closed.elim mode message
  · exact congrArg Host.Outcome.next ((if_pos preamble).trans (by rw [TxUnit.afterPreamble_of_break _ queue brk]))
  · exact congrArg Host.Outcome.next ((if_pos preamble).trans
      (by rw [TxUnit.afterPreamble_of_none _ queue noBrk, begun]))
  · exact congrArg Host.Outcome.next ((if_pos brk).trans (by rw [begun]))

end Sys2Proof.Machine

/-! PROOFS. SEND, CANNED_WRITE and TX_FLUSH (R149 to R152, R161, R162). -/

namespace Sys2Proof.Machine

/-! ### SEND and CANNED_WRITE (R149 to R151) -/

theorem breakLengthOk_iff (n : Nat) : breakLengthOk n = true ↔ n = 0 ∨ 13 ≤ n := by
  simp [breakLengthOk]

/-- The values of a transmission that a line refuses (R150, R151). -/
def sendOutside (s : State) (i : LineId) (brk options : Byte) : Bool :=
  !breakLengthOk brk.toNat || (options.getLsbD 0 && (s.line i).cfg.format != .f8A)

theorem sendOutside_of_bad {s : State} {i : LineId} {brk opts : Byte}
    (h : (1 ≤ brk.toNat ∧ brk.toNat ≤ 12) ∨ (opts.getLsbD 0 = true ∧ (s.line i).cfg.format ≠ .f8A)) :
    sendOutside s i brk opts = true := by
  rw [sendOutside, Bool.or_eq_true]
  refine h.imp (fun short => ?_) (fun address => ?_)
  · rw [Bool.not_eq_true', Bool.eq_false_iff, ne_eq, breakLengthOk_iff]
    omega
  · rw [Bool.and_eq_true, bne_iff_ne]
    exact address

theorem sendOutside_of_good {s : State} {i : LineId} {brk opts : Byte} (length : brk.toNat = 0 ∨ 13 ≤ brk.toNat)
    (address : opts.getLsbD 0 = true → (s.line i).cfg.format = .f8A) : sendOutside s i brk opts = false := by
  rw [sendOutside, (breakLengthOk_iff _).2 length]
  cases set : opts.getLsbD 0
  · rfl
  · rw [address set]; rfl

section
variable {s : State} {i : LineId} {pre brk opts : Byte} {data : List Byte}

theorem sendRequest_of_cannot (h : (s.line i).canSend = false) :
    sendRequest s i pre brk opts data = .refuse s .state := if_pos (by rw [h]; rfl)

theorem sendRequest_of_outside (may : (s.line i).canSend = true) (h : sendOutside s i brk opts = true) :
    sendRequest s i pre brk opts data = .refuse s .range :=
  (if_neg (by rw [may]; decide)).trans (if_pos h)

theorem sendRequest_of_full (may : (s.line i).canSend = true) (h : sendOutside s i brk opts = false)
    (full : 4 ≤ (s.line i).tx.queue.length) : sendRequest s i pre brk opts data = .refuse s .full :=
  (if_neg (by rw [may]; decide)).trans ((if_neg (ne_true_of_eq_false h)).trans (if_pos full))

theorem sendRequest_of_room (may : (s.line i).canSend = true) (h : sendOutside s i brk opts = false)
    (room : (s.line i).tx.queue.length < 4) :
    sendRequest s i pre brk opts data =
      .ok (s.setTx i { (s.line i).tx with
          queue := (s.line i).tx.queue ++ [⟨.host, pre.toNat, brk.toNat, opts.getLsbD 0, data⟩]
          state := if (s.line i).tx.state = .idle then .wait else (s.line i).tx.state })
        [BitVec.ofNat 8 ((s.line i).tx.queue.length + 1)] := by
  have sent : sendRequest s i pre brk opts data = _ := (if_neg (by rw [may]; decide)).trans
    ((if_neg (ne_true_of_eq_false h)).trans (if_neg (Nat.not_le.2 room)))
  refine sent.trans (congrArg (fun n => Answer.ok (s.setTx i _) [BitVec.ofNat 8 n]) ?_)
  exact List.length_append

/-- A slot number reads back. -/
theorem slotOfByte_ofNat (c : Fin 8) : slotOfByte (BitVec.ofNat 8 c.val) = some c := by
  revert c; decide

theorem cannedWrite_of_outside (c : Fin 8) (h : sendOutside s i brk opts = true) :
    cannedWrite s (BitVec.ofNat 8 c.val) (quadByte i) pre brk opts data = .refuse s .range := by
  simp only [cannedWrite, slotOfByte_ofNat, quadOfByte_quadByte]
  exact if_pos h

theorem cannedWrite_of_inside (c : Fin 8) (h : sendOutside s i brk opts = false) :
    cannedWrite s (BitVec.ofNat 8 c.val) (quadByte i) pre brk opts data =
      .ok { s with
          canned := s.canned.set c
            (if data = [] then none else some ⟨i, pre.toNat, brk.toNat, opts.getLsbD 0, data⟩) } [] := by
  simp only [cannedWrite, slotOfByte_ofNat, quadOfByte_quadByte]
  refine (if_neg (ne_true_of_eq_false h)).trans ?_
  cases data <;> rfl

end

/-! ### TX_FLUSH (R161, R162) -/

section
variable {s : State} {i : LineId}

theorem flushTx_of_waiting (h : (s.line i).tx.state = .idle ∨ (s.line i).tx.state = .wait) :
    flushTx s i = s.setTx i { (s.line i).tx with state := .idle, queue := [], awaited := [] } := by
  rcases h with h | h <;> simp only [flushTx, h]

theorem flushTx_of_taking (h : (s.line i).tx.state = .preamble ∨ (s.line i).tx.state = .brk) :
    flushTx s i =
      (s.setTx i { (s.line i).tx with queue := (s.line i).tx.queue.take 1 }).endTx i .aborted := by
  rcases h with h | h <;> simp only [flushTx, h]

theorem flushTx_of_data (h : (s.line i).tx.state = .data) (cut : (s.line i).tx.cut ≠ .reset) :
    flushTx s i =
      s.setTx i { (s.line i).tx with queue := (s.line i).tx.queue.take 1, awaited := [], cut := .flushed } := by
  unfold flushTx
  cases e : (s.line i).tx.cut with
  | reset => exact absurd e cut
  | none => simp only [h, e]
  | flushed => simp only [h, e]

theorem flushTx_of_hold (h : (s.line i).tx.state = .hold) :
    flushTx s i = judgeHold (s.setTx i { (s.line i).tx with queue := (s.line i).tx.queue.take 1 }) i := by
  simp only [flushTx, h]

/-- A collision report leaves the unit. -/
theorem collisionReport_tx (s : State) (i : LineId) : ((collisionReport s i).line i).tx = (s.line i).tx := by
  rw [collisionReport_eq_setMsg, State.line_setMsg_same]

/-- A collision found in a unit in TX_HOLD releases the driver (R158). -/
theorem foundCollision_setTx_of_hold {u : TxUnit} (hold : u.state = .hold) :
    foundCollision (s.setTx i u) i =
      (collisionReport (s.setTx i { u with collided := true, awaited := [] }) i).endTx i .collision := by
  rw [foundCollision_setTx]
  refine if_pos ?_
  rw [collisionReport_tx, State.line_setTx_same]
  exact hold

end

/-- Settles O46. -/
theorem sendCannedAndFlush : Obligations.SendCannedAndFlush := by
  refine ⟨collisionReport_eq_setMsg, ⟨?_, ?_⟩, ?_⟩
  · rintro tag pre brk opts d data i s s1 p rfl length hTaken
    have admitted : between 5 260 ([quadByte i, pre, brk, opts, d] ++ data).length = true := by
      simp only [between, List.length_append, List.length_cons, List.length_nil, decide_eq_true_eq]
      omega
    refine ⟨fun cannot => ?_, fun on free permitted => ⟨fun bad => ?_, fun brkOk address =>
      ⟨fun full => ?_, fun room => ?_⟩⟩⟩
    · refine exec_refuse hTaken admitted ((withLine_quad ..).trans (sendRequest_of_cannot ?_))
      rw [Bool.eq_false_iff, ne_eq, Line.canSend_iff]
      rintro ⟨on, free, permitted⟩
      rcases cannot with h | h | h
      · exact on h
      · exact absurd (h.symm.trans free) (by simp)
      · exact absurd (h.symm.trans permitted) (by simp)
    · have may := (Line.canSend_iff _).2 ⟨on, free, permitted⟩
      exact exec_range hTaken admitted
        ((withLine_quad ..).trans (sendRequest_of_outside may (sendOutside_of_bad bad)))
    · have may := (Line.canSend_iff _).2 ⟨on, free, permitted⟩
      exact exec_refuse hTaken admitted
        ((withLine_quad ..).trans (sendRequest_of_full may (sendOutside_of_good brkOk address) full))
    · have may := (Line.canSend_iff _).2 ⟨on, free, permitted⟩
      exact exec_ok hTaken admitted
        ((withLine_quad ..).trans (sendRequest_of_room may (sendOutside_of_good brkOk address) room)) rfl
  · rintro tag pre brk opts data c i s s1 p rfl length hTaken
    have admitted : between 5 69 ([BitVec.ofNat 8 c.val, quadByte i, pre, brk, opts] ++ data).length = true := by
      simp only [between, List.length_append, List.length_cons, List.length_nil, decide_eq_true_eq]
      omega
    refine ⟨fun bad => ?_, fun brkOk address => ?_⟩
    · exact exec_range hTaken admitted (cannedWrite_of_outside c (sendOutside_of_bad bad))
    · exact exec_ok hTaken admitted (cannedWrite_of_inside c (sendOutside_of_good brkOk address)) rfl
  · rintro tag i s s1 u hTaken rfl
    have flushes : ∀ {t : State}, flushTx s1 i = t →
        exec (.txFlush tag [quadByte i]) s = .next (answered s1 t ⟨tag, 0x72, [quadByte i]⟩ .ok []) := fun {t} h =>
      exec_ok hTaken rfl ((withLine_quad s1 i _).trans (congrArg (Answer.ok · []) h))
        (by rw [← h]; exact flushTx_resetTaken s1 i)
    refine ⟨fun waiting => flushes (flushTx_of_waiting waiting), fun taking => flushes (flushTx_of_taking taking),
      fun data cut => flushes (flushTx_of_data data cut), fun hold none => flushes ?_, fun hold some => flushes ?_⟩
    · rw [flushTx_of_hold hold, judgeHold_of_none (by simpa using none)]
    · rw [flushTx_of_hold hold, judgeHold_of_some (by simpa using some)]
      exact foundCollision_setTx_of_hold (u := { (s1.line i).tx with queue := (s1.line i).tx.queue.take 1 }) hold

end Sys2Proof.Machine

/-! PROOFS. The regions' requests (R99 to R104, R121). -/

namespace Sys2Proof.Machine

/-! ### REGION_CONFIG (R99, R100) -/

theorem placementTaken_iff (s : State) (id : RegionId) (base size : Nat) :
    placementTaken s id base size = true ↔ ∃ j, j ≠ id ∧ (s.region j).state ≠ .disabled ∧
      base < (s.region j).base + (s.region j).size ∧ (s.region j).base < base + size := by
  simp only [placementTaken, blocksOverlap, List.any_eq_true, Bool.and_eq_true, bne_iff_ne, decide_eq_true_eq,
    and_assoc, mem_quadList, true_and, ne_eq]

theorem Policy.ofCode_above {b : Byte} (h : 1 < b.toNat) : Policy.ofCode b = none := by
  revert b; decide +kernel

theorem Policy.ofCode_code (p : Policy) : Policy.ofCode p.code = some p := by
  cases p <;> rfl

theorem placeable_iff (s : State) (id : RegionId) (base size t : Nat) :
    Placeable s id base size t ↔ size ≠ 1 ∧ size ≤ 256 ∧ t ≤ 64 * size ∧
      (size ≠ 0 → base + size ≤ 256 ∧ ∀ j, j ≠ id → (s.region j).state ≠ .disabled →
        ¬(base < (s.region j).base + (s.region j).size ∧ (s.region j).base < base + size)) := by
  have words : Config.blockWords * size = 64 * size := rfl
  constructor
  · rintro ⟨sized, free⟩
    rw [words] at sized
    refine ⟨by omega, by omega, by omega, fun some => ⟨by_contra fun high => free ⟨some, .inl (by omega)⟩,
      fun j apart on overlap => free ⟨some, .inr ?_⟩⟩⟩
    exact (placementTaken_iff ..).2 ⟨j, apart, on, overlap⟩
  · rintro ⟨notOne, small, marked, free⟩
    refine ⟨by rw [words]; omega, ?_⟩
    rintro ⟨some, high | taken⟩
    · exact absurd (free some).1 (by omega)
    · obtain ⟨j, apart, on, overlap⟩ := (placementTaken_iff ..).1 taken
      exact (free some).2 j apart on overlap

/-! ### REGION_START, REGION_STOP, REGION_CLEAR and REWIND (R102 to R104, R121) -/

section
variable {s : State} {id : RegionId}

theorem regionStart_of_mode {m : Byte} (h : 1 < m.toNat) (quota : Nat) :
    regionStart s id m quota = .refuse s .range := by
  refine if_pos ⟨?_, ?_⟩ <;> rintro rfl <;> exact absurd h (by decide)

theorem regionStart_of_state {m : Byte} (mode : m.toNat ≤ 1)
    (h : (s.region id).state ≠ .stopped ∨ (m = 1 ∧ (s.region id).hasTrig = true)) (quota : Nat) :
    regionStart s id m quota = .refuse s .state := by
  have known : ¬(m ≠ 0 ∧ m ≠ 1) := by bv_omega
  by_cases stopped : (s.region id).state = .stopped
  · obtain ⟨rfl, trig⟩ := h.resolve_left (not_not.2 stopped)
    simp [regionStart, stopped, trig]
  · rw [regionStart, if_neg known, if_pos stopped]

theorem regionStart_of_run (stopped : (s.region id).state = .stopped) (quota : Nat) :
    regionStart s id 0 quota =
      .ok (s.setRegion id { s.region id with state := .run, quota := 0, short := false, trigMissing := false }) [] := by
  simp [regionStart, stopped]

theorem regionStart_of_arm (stopped : (s.region id).state = .stopped) (noTrig : (s.region id).hasTrig = false)
    (quota : Nat) :
    regionStart s id 1 quota =
      .ok (s.setRegion id { s.region id with
        state := .armed, quota := quota, short := false, trigMissing := false }) [] := by
  simp [regionStart, stopped, noTrig]

end

/-- Settles O39. -/
theorem regionRequests : Obligations.RegionRequests := by
  refine ⟨?_, fun tag m q0 q1 id s s1 hTaken => ⟨fun mode => ?_, fun mode refused => ?_, fun run stopped => ?_,
      fun arm stopped noTrig => ?_⟩,
    fun tag id s s1 => ⟨fun hTaken => ⟨fun off => ?_, fun on => ?_⟩, fun hTaken => ⟨fun off => ?_, fun on => ?_⟩,
      fun hTaken => ⟨fun off => ?_, fun on => ?_⟩⟩⟩
  · rintro tag base z0 z1 pb t0 t1 id s s1 p rfl hTaken
    refine ⟨fun moving running => exec_refuse hTaken rfl
      ((withRegion_quad ..).trans (regionConfig_of_state moving running ..)), ?_⟩
    rintro size threshold rests rfl rfl
    refine ⟨fun bad => ?_, ?_⟩
    · refine exec_range hTaken rfl ((withRegion_quad ..).trans ?_)
      by_cases policy : 1 < pb.toNat
      · exact regionConfig_of_policy rests _ _ _ (Policy.ofCode_above policy)
      · refine regionConfig_of_range rests pb fun good => ?_
        obtain ⟨notOne, small, marked, free⟩ := (placeable_iff ..).1 good
        rcases bad.resolve_left policy with h | h | h | ⟨some, high⟩ | ⟨some, j, apart, on, overlap⟩
        · exact notOne h
        · omega
        · omega
        · exact absurd (free some).1 (by omega)
        · exact (free some).2 j apart on overlap
    · rintro pol rfl notOne small marked free
      exact exec_ok hTaken rfl ((withRegion_quad ..).trans (regionConfig_of_placeable rests (Policy.ofCode_code pol)
        ((placeable_iff ..).2 ⟨notOne, small, marked, free⟩))) rfl
  · exact exec_range hTaken rfl ((withRegion_quad ..).trans (regionStart_of_mode mode _))
  · exact exec_refuse hTaken rfl ((withRegion_quad ..).trans (regionStart_of_state mode refused _))
  · subst run
    exact exec_ok hTaken rfl ((withRegion_quad ..).trans (regionStart_of_run stopped _)) rfl
  · subst arm
    exact exec_ok hTaken rfl ((withRegion_quad ..).trans (regionStart_of_arm stopped noTrig _)) rfl
  · exact exec_refuse hTaken rfl ((withRegion_quad ..).trans (if_pos off))
  · exact exec_ok hTaken rfl ((withRegion_quad ..).trans (if_neg on)) rfl
  · exact exec_refuse hTaken rfl ((withRegion_quad ..).trans (if_pos off))
  · exact exec_ok hTaken rfl ((withRegion_quad ..).trans (if_neg on)) rfl
  · exact exec_refuse hTaken rfl ((withRegion_quad ..).trans (if_pos off))
  · exact exec_ok hTaken rfl ((withRegion_quad ..).trans (if_neg on)) rfl

end Sys2Proof.Machine

/-! PROOFS. Every way an offer is taken (R105 to R118). -/

namespace Sys2Proof.Machine

/-! ### What an offer comes to (R105 to R114) -/

theorem Region.roomNeeded_of {r : Region} {rec : Rec} {need : Nat}
    (h : need = rec.words.length + (if r.pendMsgs = 0 ∧ r.pendOther = 0 then 0 else 2)) : r.roomNeeded rec = need := by
  rw [h, Region.roomNeeded, Rec.size]
  by_cases clear : r.pendMsgs = 0 ∧ r.pendOther = 0
  · simp [Region.refusalsPending, clear]
  · rw [if_neg clear, if_pos ((Region.refusalsPending_iff r).2 (by tauto))]

section
variable {id : RegionId} {p : Placed} {rec : Rec}

theorem Placed.offer_of_resting (rests : p.region.state.resting) :
    p.offer id rec =
      if rec.kind = .msg ∨ rec.kind = .brk then
        { placed := { p with region := p.region.countRefused rec.kind }, recorded := false, notices := [] }
      else { placed := p, recorded := false, notices := [] } := by
  rcases rests with h | h | h <;> simp only [Placed.offer, h]

theorem Placed.offer_of_ignored (runs : p.region.state = .run ∨ p.region.state = .postfill) (trig : rec.kind = .trig) :
    p.offer id rec = { placed := p, recorded := false, notices := [] } := by
  rcases runs with h | h <;> simp only [Placed.offer, h, if_pos trig]

theorem Placed.offer_of_takes (takes : p.region.takes rec) : p.offer id rec = p.receive id rec := by
  obtain ⟨h | h | h, armed⟩ := takes
  · have notTrig : rec.kind ≠ .trig := fun e => absurd (h.symm.trans (armed e)) (by simp)
    simp only [Placed.offer, h, if_neg notTrig]
  · simp only [Placed.offer, h]
  · have notTrig : rec.kind ≠ .trig := fun e => absurd (h.symm.trans (armed e)) (by simp)
    simp only [Placed.offer, h, if_neg notTrig]

theorem Placed.receive_of_room (room : p.region.roomNeeded rec ≤ p.region.free) :
    p.receive id rec = p.takeIn id rec := if_pos room

theorem Placed.receive_of_postfill (full : ¬p.region.roomNeeded rec ≤ p.region.free)
    (post : p.region.state = .postfill) : p.receive id rec = p.refuseAndFreeze id rec.kind true false :=
  (if_neg full).trans (if_pos post)

theorem Placed.receive_of_stop (full : ¬p.region.roomNeeded rec ≤ p.region.free) (filling : p.region.state ≠ .postfill)
    (stop : p.region.policy = .stop) :
    p.receive id rec =
      if rec.kind = .trig then p.refuseAndFreeze id rec.kind false true else p.refuseForRoom rec.kind := by
  simp only [Placed.receive, if_neg full, if_neg filling, stop]

theorem Placed.receive_of_roll (full : ¬p.region.roomNeeded rec ≤ p.region.free) (filling : p.region.state ≠ .postfill)
    (roll : p.region.policy = .roll)
    (made : p.region.roomNeeded rec ≤
      (Region.makeRoom p.mem p.region.count p.region (p.region.roomNeeded rec)).free) :
    p.receive id rec =
      Placed.takeIn id
        { p with region := Region.makeRoom p.mem p.region.count p.region (p.region.roomNeeded rec) } rec := by
  simp only [Placed.receive, if_neg full, if_neg filling, roll, if_pos made]

end

/-- A refusal for lack of room by kind (R109, R125). -/
theorem Placed.refuseForRoom_msg (p : Placed) : p.refuseForRoom .msg =
    { placed := { p with region := { p.region with
        refusedMsgs := satInc 0xFFFFFFFF p.region.refusedMsgs
        pendMsgs := satInc 65535 p.region.pendMsgs } }, recorded := false, notices := [] } := rfl

theorem Placed.refuseForRoom_other (p : Placed) {kind : RecKind} (h : kind ≠ .msg) : p.refuseForRoom kind =
    { placed := { p with region := { p.region with
        refusedOther := satInc 0xFFFFFFFF p.region.refusedOther
        pendOther := satInc 65535 p.region.pendOther } }, recorded := false, notices := [] } := by
  cases kind with
  | msg => exact absurd rfl h
  | brk | epoch | sync | meas | mark | trig | loss => rfl

theorem Region.countRefused_other (r : Region) {kind : RecKind} (h : kind ≠ .msg) :
    r.countRefused kind = { r with refusedOther := satInc 0xFFFFFFFF r.refusedOther } := by
  cases kind with
  | msg => exact absurd rfl h
  | brk | epoch | sync | meas | mark | trig | loss => rfl

theorem Placed.refuseAndFreeze_other (id : RegionId) (p : Placed) {kind : RecKind} (h : kind ≠ .msg) (a b : Bool) :
    p.refuseAndFreeze id kind a b =
      { placed := { p with region := { p.region with
          refusedOther := satInc 0xFFFFFFFF p.region.refusedOther, state := .frozen, short := a, trigMissing := b } }
        recorded := false
        notices := [{ kind := .frozen id, payload := [BitVec.ofNat 8 id.val, byteOfBits [a, b]] }] } := by
  rw [Placed.refuseAndFreeze, Region.countRefused_other _ h]
  rfl

/-! ### The state after a written record (R113, R115, R116) -/

/-- The FROZEN notice of a region that froze with a written record. -/
def frozenByWrite (id : RegionId) : Notice := { kind := .frozen id, payload := [BitVec.ofNat 8 id.val, 0] }

section
variable (id : RegionId) {kind : RecKind} {r : Region}

theorem Region.afterWrite_trig (r : Region) : r.afterWrite id .trig =
    if r.quota = 0 then
      ({ r with hasTrig := true, state := .frozen, short := false, trigMissing := false }, [frozenByWrite id])
    else ({ r with hasTrig := true, state := .postfill }, []) := rfl

theorem Region.afterWrite_data (data : kind = .msg ∨ kind = .brk) (post : r.state = .postfill) :
    r.afterWrite id kind =
      if r.quota - 1 = 0 then
        ({ r with quota := r.quota - 1, state := .frozen, short := false, trigMissing := false }, [frozenByWrite id])
      else ({ r with quota := r.quota - 1 }, []) := by
  rcases data with rfl | rfl <;> exact if_pos post

theorem Region.afterWrite_plain (notTrig : kind ≠ .trig) (plain : r.state ≠ .postfill ∨ (kind ≠ .msg ∧ kind ≠ .brk)) :
    r.afterWrite id kind = (r, []) := by
  cases kind with
  | trig => exact absurd rfl notTrig
  | msg => exact if_neg (plain.resolve_right fun h => h.1 rfl)
  | brk => exact if_neg (plain.resolve_right fun h => h.2 rfl)
  | epoch | sync | meas | mark | loss => rfl

/-- What a written record leaves when the region freezes with it, and when it does not (R116). -/
inductive Region.Froze (id : RegionId) (r : Region) : Region × List Notice → Prop
  | froze {t : Region} (frozen : t.state = .frozen) (short : t.short = false) (trigMissing : t.trigMissing = false) :
      Froze id r (t, [frozenByWrite id])
  | ran {t : Region} (running : t.state ≠ .frozen) (short : t.short = r.short)
      (trigMissing : t.trigMissing = r.trigMissing) : Froze id r (t, [])

theorem Region.afterWrite_froze (running : r.state ≠ .frozen) (kind : RecKind) : r.Froze id (r.afterWrite id kind) := by
  by_cases trig : kind = .trig
  · rw [trig, Region.afterWrite_trig]
    split_ifs
    · exact .froze rfl rfl rfl
    · exact .ran (by simp) rfl rfl
  · by_cases plain : r.state ≠ .postfill ∨ (kind ≠ .msg ∧ kind ≠ .brk)
    · rw [Region.afterWrite_plain id trig plain]
      exact .ran running rfl rfl
    · rw [Region.afterWrite_data id (by tauto) (by tauto)]
      split_ifs
      · exact .froze rfl rfl rfl
      · exact .ran running rfl rfl

/-- THRESHOLD is raised at a crossing (R118). -/
theorem Region.mem_judgeThreshold (r : Region) (n : Notice) :
    n ∈ (r.judgeThreshold id).2 ↔ r.crossed = false ∧ r.threshold ≠ 0 ∧ r.threshold ≤ r.used ∧
      n = { kind := .threshold id, payload := BitVec.ofNat 8 id.val :: bytesOfNat 2 r.used } := by
  unfold Region.judgeThreshold
  split_ifs with passed crossed
  · simp [crossed]
  · simp [passed, crossed]
  · simp only [List.not_mem_nil, false_iff]
    exact fun h => passed ⟨h.2.1, h.2.2.1⟩

end

/-! ### An admitted record (R107) -/

section
variable (id : RegionId) (p : Placed) (rec : Rec)

/-- The region with the record written, and its notices, before the threshold is judged. -/
def Placed.judged : Region × List Notice := (p.region.withWords rec.words.length).afterWrite id rec.kind

theorem Placed.takeIn_judged :
    (p.takeIn id rec).placed.region =
      { (p.judged id rec).1 with crossed := (p.takeIn id rec).placed.region.crossed } := by
  rw [Placed.takeIn_region]
  exact Region.judgeThreshold_keeps id _

/-- What of the region a written record changes besides the ring (R107 point 4, R118). -/
theorem Placed.takeIn_keeps :
    (p.takeIn id rec).placed.region =
      { p.region.withWords rec.words.length with
        state := (p.takeIn id rec).placed.region.state, quota := (p.takeIn id rec).placed.region.quota
        hasTrig := (p.takeIn id rec).placed.region.hasTrig, short := (p.takeIn id rec).placed.region.short
        trigMissing := (p.takeIn id rec).placed.region.trigMissing
        crossed := (p.takeIn id rec).placed.region.crossed } := by
  have after := Region.afterWrite_keeps id rec.kind (p.region.withWords rec.words.length)
  rw [Placed.takeIn_judged, Placed.judged, after]

theorem Placed.takeIn_crossed :
    (p.takeIn id rec).placed.region.crossed = true ↔
      p.region.threshold ≠ 0 ∧ p.region.threshold ≤ p.region.used + p.region.roomNeeded rec := by
  rw [Placed.takeIn_region, Region.judgeThreshold_crossed, Region.afterWrite_keeps, Region.roomNeeded_eq,
    List.length_append]
  rfl

theorem Placed.mem_takeIn_notices (n : Notice) :
    n ∈ (p.takeIn id rec).notices ↔ n ∈ (p.judged id rec).2 ∨
      (p.region.crossed = false ∧ p.region.threshold ≠ 0 ∧
        p.region.threshold ≤ p.region.used + p.region.roomNeeded rec ∧
        n = { kind := .threshold id
              payload := BitVec.ofNat 8 id.val :: bytesOfNat 2 (p.region.used + p.region.roomNeeded rec) }) := by
  have notices : (p.takeIn id rec).notices = (p.judged id rec).2 ++ ((p.judged id rec).1.judgeThreshold id).2 := by
    rw [Placed.judged, ← Placed.put_region]
    rfl
  rw [notices, List.mem_append, Region.mem_judgeThreshold, Placed.judged, Region.afterWrite_keeps,
    Region.roomNeeded_eq, List.length_append]
  rfl

theorem Placed.takeIn_mem_of_none (clear : p.region.refusalsPending = false) :
    (p.takeIn id rec).placed.mem = p.region.writeWords p.mem p.region.tail rec.words := by
  rw [Placed.takeIn_mem, Placed.put, Placed.writeLoss_of_none clear]
  rfl

theorem Placed.takeIn_mem_of_some (pending : p.region.refusalsPending = true) :
    (p.takeIn id rec).placed.mem =
      p.region.writeWords
        (p.region.writeWords p.mem p.region.tail (lossWords p.region.pendMsgs p.region.pendOther))
        (p.region.advance p.region.tail 2) rec.words := by
  have loss : p.region.noPending.writeWords p.mem p.region.tail p.region.lossPart =
      p.region.writeWords p.mem p.region.tail p.region.lossPart :=
    Region.writeWords_congr (r := p.region) (t := p.region.noPending) rfl rfl _ _ _
  rw [Placed.takeIn_mem, Placed.put, Placed.writeLoss_of_some pending, ← Region.lossPart_of_some pending, ← loss]
  have own := Region.writeWords_congr (r := p.region)
      (t := (Placed.write { p with region := p.region.noPending } p.region.lossPart).region) rfl rfl rec.words
      (p.region.noPending.writeWords p.mem p.region.tail p.region.lossPart) (p.region.advance p.region.tail 2)
  rw [← own]
  have two : p.region.lossPart.length = 2 := by rw [Region.lossPart_of_some pending]; rfl
  rw [← two]
  rfl

end

/-! ### The whole of an offer -/

/-- The words a record needs, by its pending refusals. -/
abbrev needs (p : Placed) (rec : Rec) (need : Nat) : Prop :=
  need = rec.words.length + (if p.region.pendMsgs = 0 ∧ p.region.pendOther = 0 then 0 else 2)

section
variable {id : RegionId} {p : Placed} {rec : Rec} {need : Nat}

/-- A region that takes no record counts an MSG or a BRK record (R105). -/
theorem Placed.offer_resting (h : p.region.state = .disabled ∨ p.region.state = .stopped ∨ p.region.state = .frozen) :
    (Placed.offer id p rec).recorded = false ∧ (Placed.offer id p rec).notices = [] ∧
      (Placed.offer id p rec).placed.mem = p.mem ∧
      (rec.kind = .msg → (Placed.offer id p rec).placed.region =
        { p.region with refusedMsgs := satInc 0xFFFFFFFF p.region.refusedMsgs }) ∧
      (rec.kind = .brk → (Placed.offer id p rec).placed.region =
        { p.region with refusedOther := satInc 0xFFFFFFFF p.region.refusedOther }) ∧
      (rec.kind ≠ .msg → rec.kind ≠ .brk → (Placed.offer id p rec).placed.region = p.region) := by
  rw [Placed.offer_of_resting h]
  by_cases counted : rec.kind = .msg ∨ rec.kind = .brk
  · rw [if_pos counted]
    exact ⟨rfl, rfl, rfl, fun e => by rw [e]; rfl, fun e => by rw [e]; rfl, fun a b => absurd counted (by tauto)⟩
  · rw [if_neg counted]
    exact ⟨rfl, rfl, rfl, fun e => absurd (.inl e) counted, fun e => absurd (.inr e) counted, fun _ _ => rfl⟩

/-- STOP without room refuses (R109, R112). -/
theorem Placed.offer_of_stop (hn : needs p rec need) (takes : p.region.takes rec)
    (filling : p.region.state ≠ .postfill) (full : p.region.free < need) (stop : p.region.policy = .stop) :
    Placed.offer id p rec =
      if rec.kind = .trig then p.refuseAndFreeze id rec.kind false true else p.refuseForRoom rec.kind := by
  have noRoom : ¬p.region.roomNeeded rec ≤ p.region.free := by rw [Region.roomNeeded_of hn]; omega
  rw [Placed.offer_of_takes takes, Placed.receive_of_stop noRoom filling stop]

/-- POSTFILL without room freezes (R114). -/
theorem Placed.offer_of_postfill (hn : needs p rec need) (post : p.region.state = .postfill)
    (full : p.region.free < need) (notTrig : rec.kind ≠ .trig) :
    Placed.offer id p rec = p.refuseAndFreeze id rec.kind true false := by
  have noRoom : ¬p.region.roomNeeded rec ≤ p.region.free := by rw [Region.roomNeeded_of hn]; omega
  rw [Placed.offer_of_takes ⟨.inr (.inr post), fun e => absurd e notTrig⟩, Placed.receive_of_postfill noRoom post]

/-- ROLL without room discards first, and the record is then taken as by a region with room (R108). -/
theorem Placed.offer_of_roll (hn : needs p rec need) (takes : p.region.takes rec)
    (filling : p.region.state ≠ .postfill) (full : p.region.free < need) (roll : p.region.policy = .roll)
    (made : need ≤ (Region.makeRoom p.mem p.region.count p.region need).free) :
    Placed.offer id p rec =
      Placed.offer id { p with region := Region.makeRoom p.mem p.region.count p.region need } rec := by
  have room := Region.roomNeeded_of hn
  have noRoom : ¬p.region.roomNeeded rec ≤ p.region.free := by rw [room]; omega
  rw [Placed.offer_of_takes takes, Placed.receive_of_roll noRoom filling roll (by rwa [room]), room]
  obtain ⟨k, -, discarded, -, -⟩ := Region.makeRoom_eq_discards p.mem p.region.count p.region need
  rw [discarded] at made ⊢
  have same : (Region.discards p.mem k p.region).takes rec := by
    rw [Region.takes, Region.discards_state]; exact takes
  have sameRoom : (Region.discards p.mem k p.region).roomNeeded rec = need := by
    rw [← room, Region.roomNeeded_eq, Region.roomNeeded_eq, Region.discards_lossPart]
  rw [Placed.offer_of_takes (p := ⟨p.mem, Region.discards p.mem k p.region⟩) same,
    Placed.receive_of_room (p := ⟨p.mem, Region.discards p.mem k p.region⟩) (by rw [sameRoom]; exact made)]

/-- With room the record is written (R107). -/
theorem Placed.offer_of_room (hn : needs p rec need) (takes : p.region.takes rec) (room : need ≤ p.region.free) :
    Placed.offer id p rec = p.takeIn id rec := by
  rw [Placed.offer_of_takes takes, Placed.receive_of_room (by rwa [Region.roomNeeded_of hn])]

end

section
variable (id : RegionId) {p : Placed} {rec : Rec}

/-- The words a written record moves the region by. -/
theorem Placed.takeIn_ring :
    (p.takeIn id rec).placed.region.used = p.region.used + p.region.roomNeeded rec ∧
      (p.takeIn id rec).placed.region.unread = p.region.unread + p.region.roomNeeded rec ∧
      (p.takeIn id rec).placed.region.tail = p.region.advance p.region.tail (p.region.roomNeeded rec) := by
  rw [Region.roomNeeded_eq, List.length_append, Placed.takeIn_keeps]
  exact ⟨rfl, rfl, rfl⟩

theorem Placed.takeIn_none (clear : p.region.refusalsPending = false) :
    (p.takeIn id rec).placed.region.tail = p.region.advance p.region.tail rec.words.length ∧
      (p.takeIn id rec).placed.region.count = p.region.count + 1 ∧
      (p.takeIn id rec).placed.region.written = satInc 0xFFFFFFFF p.region.written := by
  have none : p.region.lossPart = [] := Region.lossPart_of_none clear
  rw [Placed.takeIn_keeps]
  refine ⟨?_, ?_, ?_⟩
  · show p.region.advance p.region.tail (p.region.lossPart.length + rec.words.length) = _
    rw [none, List.length_nil, Nat.zero_add]
  · show p.region.count + p.region.recordsAdded = _
    rw [Region.recordsAdded, clear]
    rfl
  · show p.region.writtenAfter = _
    rw [Region.writtenAfter, clear]
    rfl

theorem Placed.takeIn_some (pending : p.region.refusalsPending = true) :
    (p.takeIn id rec).placed.region.tail = p.region.advance p.region.tail (2 + rec.words.length) ∧
      (p.takeIn id rec).placed.region.count = p.region.count + 2 ∧
      (p.takeIn id rec).placed.region.written = satInc 0xFFFFFFFF (satInc 0xFFFFFFFF p.region.written) := by
  have two : p.region.lossPart.length = 2 := by rw [Region.lossPart_of_some pending]; rfl
  rw [Placed.takeIn_keeps]
  refine ⟨?_, ?_, ?_⟩
  · show p.region.advance p.region.tail (p.region.lossPart.length + rec.words.length) = _
    rw [two]
  · show p.region.count + p.region.recordsAdded = _
    rw [Region.recordsAdded, if_pos pending]
  · show p.region.writtenAfter = _
    rw [Region.writtenAfter, if_pos pending]
    rfl

/-- The judged region's state, quota and marks are the written region's. -/
theorem Placed.takeIn_state :
    (p.takeIn id rec).placed.region.state = (p.judged id rec).1.state ∧
      (p.takeIn id rec).placed.region.quota = (p.judged id rec).1.quota ∧
      (p.takeIn id rec).placed.region.hasTrig = (p.judged id rec).1.hasTrig ∧
      (p.takeIn id rec).placed.region.short = (p.judged id rec).1.short ∧
      (p.takeIn id rec).placed.region.trigMissing = (p.judged id rec).1.trigMissing := by
  rw [Placed.takeIn_judged]
  exact ⟨rfl, rfl, rfl, rfl, rfl⟩

theorem Placed.judged_trig (trig : rec.kind = .trig) :
    (p.judged id rec).1.hasTrig = true ∧
      (p.judged id rec).1.state = if p.region.quota = 0 then .frozen else .postfill := by
  have quota : (p.region.withWords rec.words.length).quota = p.region.quota := rfl
  rw [Placed.judged, trig, Region.afterWrite_trig, quota]
  split_ifs <;> exact ⟨rfl, rfl⟩

theorem Placed.judged_data (data : rec.kind = .msg ∨ rec.kind = .brk) (post : p.region.state = .postfill) :
    (p.judged id rec).1.quota = p.region.quota - 1 ∧
      (p.judged id rec).1.state = (if p.region.quota - 1 = 0 then .frozen else .postfill) ∧
      (p.judged id rec).1.hasTrig = p.region.hasTrig := by
  have quota : (p.region.withWords rec.words.length).quota = p.region.quota := rfl
  rw [Placed.judged, Region.afterWrite_data (r := p.region.withWords rec.words.length) id data post, quota]
  split_ifs
  · exact ⟨rfl, rfl, rfl⟩
  · exact ⟨rfl, post, rfl⟩

theorem Placed.judged_plain (notTrig : rec.kind ≠ .trig)
    (plain : p.region.state ≠ .postfill ∨ (rec.kind ≠ .msg ∧ rec.kind ≠ .brk)) :
    (p.judged id rec).1 = p.region.withWords rec.words.length := by
  rw [Placed.judged, Region.afterWrite_plain (r := p.region.withWords rec.words.length) id notTrig plain]

theorem Placed.judged_quota (filling : p.region.state ≠ .postfill) : (p.judged id rec).1.quota = p.region.quota := by
  by_cases trig : rec.kind = .trig
  · rw [Placed.judged, trig, Region.afterWrite_trig]
    split_ifs <;> rfl
  · rw [Placed.judged_plain id trig (.inl filling)]
    rfl

theorem Placed.judged_hasTrig (notTrig : rec.kind ≠ .trig) : (p.judged id rec).1.hasTrig = p.region.hasTrig := by
  by_cases plain : p.region.state ≠ .postfill ∨ (rec.kind ≠ .msg ∧ rec.kind ≠ .brk)
  · rw [Placed.judged_plain id notTrig plain]
    rfl
  · exact (Placed.judged_data id (by tauto) (by tauto)).2.2

/-- FROZEN is raised exactly when the region froze with the record, which is then its trigger, in full (R116). -/
theorem Placed.judged_froze (running : p.region.state ≠ .frozen) :
    ((p.judged id rec).1.state = .frozen → (p.judged id rec).1.short = false ∧ (p.judged id rec).1.trigMissing = false) ∧
      ((p.judged id rec).1.state ≠ .frozen → (p.judged id rec).1.short = p.region.short ∧
        (p.judged id rec).1.trigMissing = p.region.trigMissing) ∧
      ∀ n, n ∈ (p.judged id rec).2 ↔ (p.judged id rec).1.state = .frozen ∧ n = frozenByWrite id := by
  have froze : (p.region.withWords rec.words.length).Froze id (p.judged id rec) :=
    Region.afterWrite_froze (r := p.region.withWords rec.words.length) id running rec.kind
  generalize p.judged id rec = x at froze ⊢
  cases froze with
  | froze frozen short trigMissing =>
    exact ⟨fun _ => ⟨short, trigMissing⟩, fun runs => absurd frozen runs, fun n => by simp [frozen]⟩
  | ran runs short trigMissing =>
    exact ⟨fun frozen => absurd frozen runs, fun _ => ⟨short, trigMissing⟩, fun n => by simp [runs]⟩

end

/-- Settles O42. -/
theorem offersAreTaken : Obligations.OffersAreTaken := by
  refine ⟨fun s id rec o ho => ⟨by rw [ho]; rfl, by rw [ho]; exact State.offer_region_self .., fun j other =>
      State.offer_region_other s other rec, by rw [ho]; rfl⟩, State.offerSet_eq_foldl, fun k => ⟨rfl, fun n rest => rfl⟩,
    fun id p rec need hn => ⟨Placed.offer_resting, Placed.offer_of_ignored, fun taking full stop => ?_,
      fun armed full stop trig => ?_, fun post full msg => ?_, fun post full notMsg notTrig => ?_,
      fun taking trigArmed full roll made => ?_, fun taking trigArmed room => ?_⟩⟩
  · have filling : p.region.state ≠ .postfill := by rcases taking with h | h <;> rw [h] <;> decide
    have takes : rec.kind ≠ .trig → p.region.takes rec :=
      fun notTrig => ⟨taking.imp_right .inl, fun e => absurd e notTrig⟩
    refine ⟨fun msg => ?_, fun notMsg notTrig => ?_⟩
    · have notTrig : rec.kind ≠ .trig := by rw [msg]; decide
      rw [Placed.offer_of_stop hn (takes notTrig) filling full stop, if_neg notTrig, msg, Placed.refuseForRoom_msg]
    · rw [Placed.offer_of_stop hn (takes notTrig) filling full stop, if_neg notTrig,
        Placed.refuseForRoom_other p notMsg]
  · have filling : p.region.state ≠ .postfill := by rw [armed]; decide
    rw [Placed.offer_of_stop hn ⟨.inr (.inl armed), fun _ => armed⟩ filling full stop, if_pos trig,
      Placed.refuseAndFreeze_other id p (by rw [trig]; decide)]
    rfl
  · rw [Placed.offer_of_postfill hn post full (by rw [msg]; decide), msg]
    rfl
  · rw [Placed.offer_of_postfill hn post full notTrig, Placed.refuseAndFreeze_other id p notMsg]
    rfl
  · have filling : p.region.state ≠ .postfill := by rcases taking with h | h <;> rw [h] <;> decide
    exact Placed.offer_of_roll hn ⟨taking.imp_right .inl, trigArmed⟩ filling full roll made
  · rw [Placed.offer_of_room hn ⟨taking, trigArmed⟩ room, ← Region.roomNeeded_of hn]
    obtain ⟨used, unread, -⟩ := Placed.takeIn_ring (p := p) (rec := rec) id
    obtain ⟨state, quota, hasTrig, short, trigMissing⟩ := Placed.takeIn_state (p := p) (rec := rec) id
    have keeps := Placed.takeIn_keeps id p rec
    have running : p.region.state ≠ .frozen := by rcases taking with h | h | h <;> rw [h] <;> decide
    obtain ⟨froze, ran, notices⟩ := Placed.judged_froze (rec := rec) id running
    refine ⟨rfl, used, unread, ?_, ?_, ?_, ?_, ?_, ?_, ?_, ?_, ?_, ?_, ?_, ?_, fun noMsgs noOther => ?_, fun some => ?_,
      fun filling => ?_, fun notTrig => ?_, fun trig => ?_, fun post data => ?_, fun post notMsg notBrk => ?_,
      fun run => ?_, fun armed notTrig => ?_, ?_, ?_, Placed.takeIn_crossed id p rec, fun n => ?_⟩
    iterate 12 (rw [keeps]; rfl)
    · have clear : p.region.refusalsPending = false := by
        rw [Bool.eq_false_iff, ne_eq, Region.refusalsPending_iff]
        tauto
      exact ⟨Placed.takeIn_mem_of_none id p rec clear, Placed.takeIn_none id clear⟩
    · have pending := (Region.refusalsPending_iff p.region).2 some
      exact ⟨Placed.takeIn_mem_of_some id p rec pending, Placed.takeIn_some id pending⟩
    · rw [quota, Placed.judged_quota id filling]
    · rw [hasTrig, Placed.judged_hasTrig id notTrig]
    · rw [hasTrig, state]
      exact Placed.judged_trig id trig
    · obtain ⟨left, next, -⟩ := Placed.judged_data id data post
      exact ⟨quota.trans left, state.trans next⟩
    · have notTrig : rec.kind ≠ .trig := fun e => absurd (post.symm.trans (trigArmed e)) (by decide)
      rw [quota, state, Placed.judged_plain id notTrig (.inr ⟨notMsg, notBrk⟩)]
      exact ⟨rfl, post⟩
    · have notTrig : rec.kind ≠ .trig := fun e => absurd (run.symm.trans (trigArmed e)) (by decide)
      rw [state, Placed.judged_plain id notTrig (.inl (by rw [run]; decide))]
      exact run
    · rw [state, Placed.judged_plain id notTrig (.inl (by rw [armed]; decide))]
      exact armed
    · rw [state, short, trigMissing]
      exact froze
    · rw [state, short, trigMissing]
      exact ran
    · rw [state, Placed.mem_takeIn_notices, notices]
      rfl

end Sys2Proof.Machine

/-! PROOFS. Written records read back from the region's words, and offers store nowhere else (R97, R101, R107). -/

namespace Sys2Proof.Machine

/-! ### Words and bytes (R127) -/

/-- The bytes of a word put together from four. -/
theorem word_extract (a b c d : Byte) :
    (d ++ c ++ b ++ a : Word).extractLsb' 0 8 = a ∧ (d ++ c ++ b ++ a : Word).extractLsb' 8 8 = b ∧
      (d ++ c ++ b ++ a : Word).extractLsb' 16 8 = c ∧ (d ++ c ++ b ++ a : Word).extractLsb' 24 8 = d := by
  refine ⟨?_, ?_, ?_, ?_⟩ <;> refine BitVec.eq_of_getLsbD_eq fun i hi => ?_ <;>
    simp only [BitVec.getLsbD_extractLsb', BitVec.getLsbD_append, hi, decide_true, Bool.true_and]
  · simp [hi]
  · simp [hi]
  · rw [if_neg (by omega), if_neg (by omega), if_pos (by omega)]
    congr 1; omega
  · rw [if_neg (by omega), if_neg (by omega), if_neg (by omega)]
    congr 1; omega

theorem byteAt_of_wordAt (s : State) (w : Nat) (k : Fin 4) :
    s.byteAt (4 * w + k.val) = (s.wordAt w).extractLsb' (8 * k.val) 8 := by
  obtain ⟨first, second, third, fourth⟩ := word_extract (Memory.readByte s.store.mem (4 * w))
    (Memory.readByte s.store.mem (4 * w + 1)) (Memory.readByte s.store.mem (4 * w + 2))
    (Memory.readByte s.store.mem (4 * w + 3))
  match k with
  | 0 => exact first.symm
  | 1 => exact second.symm
  | 2 => exact third.symm
  | 3 => exact fourth.symm

/-! ### A written record (R107) -/

theorem Region.lossPart_length {r : Region} {skip : Nat}
    (h : skip = (if r.pendMsgs = 0 ∧ r.pendOther = 0 then 0 else 2)) : r.lossPart.length = skip := by
  by_cases clear : r.pendMsgs = 0 ∧ r.pendOther = 0
  · rw [h, if_pos clear, Region.lossPart_of_none]
    · rfl
    · rw [Bool.eq_false_iff, ne_eq, Region.refusalsPending_iff]
      tauto
  · rw [h, if_neg clear, Region.lossPart_of_some ((Region.refusalsPending_iff r).2 (by tauto))]
    rfl

/-- Settles O44. -/
theorem writtenRecordsReadBack : Obligations.WrittenRecordsReadBack := by
  refine ⟨fun r p n => ⟨rfl, rfl, rfl, rfl⟩, fun r m n p => ⟨rfl, rfl⟩, byteAt_of_wordAt, fun v => rfl, ?_⟩
  rintro s id rec r skip canonical rfl sound taking trigArmed hskip fits k w own
  have takes : (s.region id).takes rec := ⟨taking, trigArmed⟩
  have ahead := Region.lossPart_length hskip
  obtain ⟨-, placed, -, -, tail⟩ := sound.but.placed takes.on
  have length : ((s.region id).lossPart ++ rec.words).length = skip + rec.words.length := by
    rw [List.length_append, ahead]
  have admitted : Placed.offer id ⟨s.store.mem, s.region id⟩ rec = Placed.takeIn id ⟨s.store.mem, s.region id⟩ rec := by
    rw [Placed.offer_of_takes (p := ⟨s.store.mem, s.region id⟩) takes]
    exact Placed.receive_of_room (p := ⟨s.store.mem, s.region id⟩) (by rw [Region.roomNeeded_eq, length]; exact fits)
  have word : ((s.region id).lossPart ++ rec.words)[skip + k]? = some w := by
    rw [List.getElem?_append_right (by omega), ahead, Nat.add_sub_cancel_left, own]
  have whole : skip + rec.words.length ≤ (s.region id).words := fits.trans (Nat.sub_le _ _)
  rw [State.wordAt, State.offer_mem, admitted, Placed.takeIn_mem,
    Placed.put_mem (p := ⟨s.store.mem, s.region id⟩) tail]
  exact Region.readWord_writeWords_inside _ _ canonical placed tail (by rw [length]; exact whole) word

/-! ### Offers store at the tail alone (R97, R105) -/

/-- The byte lies outside every word that an offer of the record to the region can write. -/
def apartFromTail (s : State) (rec : Rec) (a : Nat) (id : RegionId) : Prop :=
  ∀ k, k < (s.region id).roomNeeded rec → a / 4 ≠ (s.region id).wordAt ((s.region id).advance (s.region id).tail k)

theorem State.byteAt_offer {s : State} (canonical : MemoryCanonical s) {id : RegionId} (sound : (s.region id).Sound)
    {rec : Rec} {a : Nat} (apart : apartFromTail s rec a id) : (s.offer id rec).byteAt a = s.byteAt a :=
  Placed.readByte_offer id (p := ⟨s.store.mem, s.region id⟩) canonical sound fun _ => apart

/-- Offers to regions that are each named once. -/
theorem State.foldl_offer (rec : Rec) {l : List RegionId} (once : l.Nodup) {s : State} (canonical : MemoryCanonical s)
    (sound : ∀ id ∈ l, (s.region id).Sound) :
    (∀ a, (∀ id ∈ l, apartFromTail s rec a id) →
      (l.foldl (fun t id => t.offer id rec) s).byteAt a = s.byteAt a) ∧
    ∀ j, j ∉ l → (l.foldl (fun t id => t.offer id rec) s).region j = s.region j := by
  induction l generalizing s with
  | nil => exact ⟨fun _ _ => rfl, fun _ _ => rfl⟩
  | cons id rest ih =>
    obtain ⟨new, once⟩ := List.nodup_cons.1 once
    have kept : ∀ j ∈ rest, (s.offer id rec).region j = s.region j := fun j member =>
      State.offer_region_other s (fun e => new (by rw [← e]; exact member)) rec
    obtain ⟨bytes, regions⟩ := ih once (s := s.offer id rec) (Placed.offer_wf id rec canonical)
      fun j member => by rw [kept j member]; exact sound j (List.mem_cons_of_mem _ member)
    refine ⟨fun a apart => ?_, fun j other => ?_⟩
    · have first := State.byteAt_offer canonical (sound id List.mem_cons_self) (apart id List.mem_cons_self)
      refine (bytes a fun j member => ?_).trans first
      rw [apartFromTail, kept j member]
      exact apart j (List.mem_cons_of_mem _ member)
    · obtain ⟨differs, later⟩ := not_or.1 fun h => other (List.mem_cons.2 h)
      exact (regions j later).trans (State.offer_region_other s differs rec)

theorem State.offerSet_stores {s : State} (canonical : MemoryCanonical s) (sound : ∀ id, (s.region id).Sound)
    (m : QuadSet) (rec : Rec) :
    (∀ a, (∀ id : RegionId, m.getLsbD id.val = true → apartFromTail s rec a id) →
      (s.offerSet m rec).byteAt a = s.byteAt a) ∧
    ∀ id : RegionId, m.getLsbD id.val = false → (s.offerSet m rec).region id = s.region id := by
  have once : (([0, 1, 2, 3] : List RegionId).filter fun id => m.getLsbD id.val).Nodup :=
    List.Nodup.filter _ (by decide)
  obtain ⟨bytes, regions⟩ := State.foldl_offer rec once canonical fun id _ => sound id
  rw [State.offerSet_eq_foldl]
  refine ⟨fun a apart => bytes a fun id member => apart id (by simpa using (List.mem_filter.1 member).2),
    fun id outside => regions id fun member => ?_⟩
  have inside := (List.mem_filter.1 member).2
  rw [outside] at inside
  cases inside

/-- A request's reply, in a part that had the request in handling, moves the link alone. -/
theorem sameButLink_answered (before after : State) (req : Request) (st : Status) (content : List Byte) :
    sameButLink after (answered before after req st content) :=
  sameButLink_placeReply (sameButLink_refl after) before _

/-! ### What a completion and a flag event leave (R29 to R33) -/

theorem State.joinQueue_lineStats (s : State) (e : SeqEvent) : (s.joinQueue e).stats.lines = s.stats.lines := by
  rcases Nat.lt_or_ge s.seq.queue.length 16 with place | full
  · rw [State.joinQueue_of_place place]
  · by_cases armed : s.seq.state = .armed
    · rw [State.joinQueue_of_full_armed full armed]
    · rw [State.joinQueue_of_full_idle full armed]

theorem sendFlags_keeps (s : State) (i : LineId) (flags : FlagSet) :
    (sendFlags s i flags).store = s.store ∧ (sendFlags s i flags).filters = s.filters ∧
      (sendFlags s i flags).stats.lines = s.stats.lines ∧
      (s.seq.queue.length < 16 → (sendFlags s i flags).timers = s.timers) := by
  by_cases none : flags = 0
  · rw [sendFlags_of_zero none]
    exact ⟨rfl, rfl, rfl, fun _ => rfl⟩
  · rw [sendFlags_of_ne none]
    refine ⟨by rw [State.joinQueue_keeps], by rw [State.joinQueue_keeps], State.joinQueue_lineStats s _, fun place => ?_⟩
    rw [State.joinQueue_of_place place]

theorem State.region_of_store {s t : State} (h : t.store = s.store) (j : RegionId) : t.region j = s.region j := by
  rw [State.region, State.region, h]

theorem State.byteAt_of_store {s t : State} (h : t.store = s.store) (a : Nat) : t.byteAt a = s.byteAt a := by
  rw [State.byteAt, State.byteAt, h]

/-- A completion touches the store by its record offer alone. -/
theorem completed_keeps (c : LineSettings) (i : LineId) (cause : EndCause) (m : Message) (s : State)
    {a : FilterAnswer} (ha : a = filterAnswer (m.props i) c.defaultAction s.filters.toList) :
    (a.decision = .drop → (completed c i cause m s).store = s.store) ∧
      (a.decision = .record →
        (completed c i cause m s).store = (s.offer c.region (msgRecord i cause m a.index a.slice)).store) ∧
      (completed c i cause m s).filters = s.filters.map (Filter.count (m.props i)) ∧
      (∀ j, j ≠ i → (completed c i cause m s).lineStats j = s.lineStats j) ∧
      (s.seq.queue.length < 16 → (completed c i cause m s).timers = s.timers) := by
  cases decision : a.decision with
  | drop =>
    rw [completed_of_drop ha decision]
    obtain ⟨store, filters, lines, timers⟩ := sendFlags_keeps
      ((s.countHits (m.props i)).report i fun g => g.completion .filtered m.received m.flags.trunc) i a.flags
    refine ⟨fun _ => store, fun h => (by cases h), filters, fun j other => ?_, timers⟩
    rw [State.lineStats, lines]
    exact State.lineStats_setLineStats_other (s.countHits (m.props i)) i j _ other.symm
  | record =>
    rw [completed_of_record ha rfl rfl decision]
    obtain ⟨store, filters, lines, timers⟩ := sendFlags_keeps
      (((s.countHits (m.props i)).offer c.region (msgRecord i cause m a.index a.slice)).report i fun g =>
        g.completion (if (s.countHits (m.props i)).offerRecorded c.region (msgRecord i cause m a.index a.slice) then
          .recorded else .lost) m.received m.flags.trunc) i a.flags
    refine ⟨fun h => (by cases h), fun _ => store, filters, fun j other => ?_, timers⟩
    rw [State.lineStats, lines]
    exact State.lineStats_setLineStats_other
      ((s.countHits (m.props i)).offer c.region (msgRecord i cause m a.index a.slice)) i j _ other.symm

/-- A capture offers its record to the unit's set of regions. -/
theorem State.captureTimer_stores {s : State} (canonical : MemoryCanonical s) (sound : ∀ id, (s.region id).Sound)
    (u : UnitId) {rec : Rec} (hrec : rec = measRecord u (s.timer u).count s.tb.counter s.epochTag) :
    (∀ a, (∀ id : RegionId, (s.timer u).mask.getLsbD id.val = true → apartFromTail s rec a id) →
      (s.captureTimer u).byteAt a = s.byteAt a) ∧
    ∀ id : RegionId, (s.timer u).mask.getLsbD id.val = false → (s.captureTimer u).region id = s.region id := by
  subst hrec
  exact State.offerSet_stores (s := s.setTimer u { s.timer u with capture := (s.timer u).count }) canonical sound
    (s.timer u).mask _

/-- A completion offers its record, when the filters decide for one, to the line's region. -/
theorem completeMessage_stores {s : State} {i : LineId} (canonical : MemoryCanonical s)
    (sound : (s.region (s.line i).cfg.region).Sound) (cause : EndCause) {m : Message} {g : FilterAnswer} {rec : Rec}
    (hg : g = filterAnswer (m.props i) (s.line i).cfg.defaultAction s.filters.toList)
    (hrec : rec = msgRecord i cause m g.index g.slice) :
    (∀ a, (g.decision = .record → apartFromTail s rec a (s.line i).cfg.region) →
      (completeMessage s i cause m).byteAt a = s.byteAt a) ∧
    ∀ j, j ≠ (s.line i).cfg.region → (completeMessage s i cause m).region j = s.region j := by
  obtain ⟨drop, record, -⟩ := completed_keeps (s.line i).cfg i cause m s hg
  rw [← hrec] at record
  cases decision : g.decision with
  | drop => exact ⟨fun a _ => State.byteAt_of_store (drop decision) a,
      fun j _ => State.region_of_store (drop decision) j⟩
  | record =>
    refine ⟨fun a apart => (State.byteAt_of_store (record decision) a).trans ?_,
      fun j other => (State.region_of_store (record decision) j).trans (State.offer_region_other s other rec)⟩
    exact State.byteAt_offer canonical sound (apart rfl)

/-- Counting hits leaves every filter's entry. -/
theorem State.filter_entry_of_count {s t : State} {p : MsgProps} (h : t.filters = s.filters.map (Filter.count p))
    (e : Fin 32) : (t.filter e).entry = (s.filter e).entry := by
  simp only [State.filter, h, Fin.getElem_fin, Vector.getElem_map, Filter.count]

/-- Settles O52. -/
theorem offersStoreAtTheTail : Obligations.OffersStoreAtTheTail := by
  refine ⟨?_, ?_, ?_, ?_⟩
  · rintro s t m rec canonical sound rfl
    obtain ⟨bytes, regions⟩ := State.offerSet_stores canonical sound.1 m rec
    exact ⟨rfl, regions, bytes⟩
  · rintro tag u s s1 t rec canonical sound hTaken hrec ht
    have same : sameButLink s s1 := by rw [hTaken.2.2]; exact sameButLink_taken s _
    obtain ⟨lines, tb, pins, timers, filters, seq, store, canned, -⟩ := same
    have done : t = answered s1 (s1.captureTimer u) ⟨tag, 0x24, [quadByte u, 2]⟩ .ok [] :=
      Host.Outcome.next.inj (ht.symm.trans (timerCapture tag u s s1 hTaken))
    have reply := sameButLink_answered s1 (s1.captureTimer u) ⟨tag, 0x24, [quadByte u, 2]⟩ .ok []
    rw [← done] at reply
    obtain ⟨tLines, tTb, tPins, tTimers, tFilters, tSeq, tStore, tCanned, -⟩ := reply
    obtain ⟨bytes, regions⟩ := State.captureTimer_stores (s := s1) (by rw [MemoryCanonical, store]; exact canonical)
      (fun id => by rw [State.region_of_store store]; exact sound.1 id) u hrec
    refine ⟨fun a apart => ?_, fun id outside => ?_, tLines.trans lines, tFilters.trans filters, tSeq.trans seq,
      tTb.trans tb, tPins.trans pins, tCanned.trans canned, fun v other => ?_⟩
    · exact (State.byteAt_of_store tStore a).trans ((bytes a apart).trans (State.byteAt_of_store store a))
    · exact (State.region_of_store tStore id).trans ((regions id outside).trans (State.region_of_store store id))
    · have kept : (s1.captureTimer u).timers[v] = s1.timers[v] := State.timer_setTimer_other s1 u v _ other.symm
      simp only [State.timer]
      rw [tTimers, kept, timers]
  · rintro i s t m g rec id canonical sound state free sixteenth meets small mode some hg hrec rfl ht
    have done := Host.Outcome.next.inj (ht.symm.trans
      (completionIsWhole.1 i s m state free sixteenth meets small mode some))
    obtain ⟨x, hx⟩ : ∃ x, x = s.setRx i { (s.line i).rx with
      level := .mark, awaitingMark := false, idleSamples := 0, idle := (s.line i).cfg.gapThreshold } := ⟨_, rfl⟩
    rw [← hx] at done
    have cfg : (x.line i).cfg = (s.line i).cfg := by rw [hx, State.line_setRx_same]
    have own : g = filterAnswer (m.props i) (x.line i).cfg.defaultAction x.filters.toList := by rw [cfg, hx]; exact hg
    obtain ⟨-, -, filters, stats, timers⟩ := completed_keeps (x.line i).cfg i .gap m x own
    obtain ⟨bytes, regions⟩ := completeMessage_stores (s := x) (by rw [hx]; exact canonical)
      (by rw [hx]; exact sound.1 _) .gap own hrec
    have line : ∀ j, j ≠ i → (completeMessage x i .gap m).line j = s.line j := fun j other => by
      rw [completeMessage_line_other x other.symm, hx, State.line_setRx_other s i j _ other.symm]
    have tb : (completeMessage x i .gap m).tb = x.tb := by rw [completeMessage_keeps]
    have pins : (completeMessage x i .gap m).pins = x.pins := by rw [completeMessage_keeps]
    have canned : (completeMessage x i .gap m).canned = x.canned := by rw [completeMessage_keeps]
    rw [done]
    rw [cfg] at bytes regions
    subst hx
    exact ⟨bytes, regions, fun j other => ⟨line j other, stats j other⟩, State.filter_entry_of_count filters,
      tb, pins, canned, timers⟩
  · rintro i s t rec id canonical sound state last quiet none rfl rfl ht
    obtain ⟨x, hx⟩ : ∃ x, x = s.setRx i { (s.line i).rx with
      state := .hunt, level := .mark, idle := 0, idleSamples := 0, markRun := 0, frameSamples := 0,
      startPending := false, awaitingMark := false } := ⟨_, rfl⟩
    have same : x.line i = { s.line i with rx := (x.line i).rx } := by rw [hx, State.line_setRx_same]
    have done := Host.Outcome.next.inj (ht.symm.trans (breaksAreDelivered.2.1 i s x state last hx))
    rw [deliverBreak_of_quiet (by rw [same]; exact quiet), assembleBreak_of_closed (by rw [same]; exact none),
      same] at done
    subst hx done
    exact ⟨fun a apart => State.byteAt_offer (s := s.setRx i _) canonical (sound.1 _) apart,
      fun j other => State.offer_region_other (s.setRx i _) other _,
      fun j other => State.line_setRx_other s i j _ other.symm, rfl, rfl, rfl, rfl, rfl, rfl⟩

end Sys2Proof.Machine
